-- ==== Sys2Proof/Word.lean ====
section
/-! DEFINITION. The words the block works on: command words, bytes, and the exact fixed-point numbers of rule R11. -/

namespace Sys2Proof

/-- A 32-bit word (R9): a command word, a register value or an RGBA colour. -/
abbrev Word := BitVec 32

/-- A byte of texture memory or a string, and an 8-bit palette index (R8: `INDEX_BITS = 8`). -/
abbrev Byte := BitVec 8

/-- A byte string: a registry name or a text (R92). -/
abbrev Bytes := List Byte

/-- An exact rational with denominator 65536 (R10, R11): the integer `n` stands for `n / 65536`.
Every Q16.16 operand, every sum, difference and integer multiple of such, and the centre of every
pixel is one. It is an unbounded integer, so nothing wraps (R10). -/
abbrev Fix := Int

/-- The number 1 as a `Fix`. -/
abbrev fixOne : Fix := 65536

end Sys2Proof
end

