-- ==== Sys2Proof/Syntax.lean ====
section
/-! DEFINITION. The command set as syntax: one constructor per row of spec/opcode_table.json (R95). -/

namespace Sys2Proof

/-- A legal command with its operands decoded (R88 to R93). `INT`, `Q` and `RGBA` operands are the argument word itself:
`INT` is read through `intOf` (R88), `Q` through `fixOf` (R89). `BOOL` is a `Bool` (R90), `RGB` the 24 bits that count
(R91), `STR` the byte string (R92). `STILE` and `MFILL` have one constructor per form (R96). -/
inductive Instr where
  | nop
  | drawen (b : Bool)
  | prerender
  | postrender
  | clear (c : BitVec 24)
  | camera (x y : Word)
  /-- `STILE id, i, j`, NW = 3 -/
  | stile (id i j : Word)
  /-- `STILE id, i, j, w, h`, NW = 5 -/
  | stileSpan (id i j w h : Word)
  | sorigin (x y : Word)
  | sflip (h v : Bool)
  | sscale (h v : Word)
  | srot (deg : Word)
  | sclear
  | sdraw (x y : Word)
  | sbox (x y w h : Word)
  | fnt (name : Bytes)
  | falign (x y : Word)
  | fcolor (c : BitVec 24)
  | fclear
  | fdraw (x y : Word) (text : Bytes)
  | tmap (name : Bytes)
  | tmode (val : Word)
  | mmode (val : Word)
  /-- `MFILL x, y, id, i, j`, NW = 5 -/
  | mfill (x y id i j : Word)
  /-- `MFILL x, y, id, i, j, w, h`, NW = 7 -/
  | mfillSpan (x y id i j w h : Word)
  | mscroll (x y : Word)
  | mclear
  | mdraw
  | palpush (c : Word)
  | palpushrgb (c : BitVec 24)
  | palindex (c : Word)
  | palcolor (i : Word)
  | palupdate
  | loadtm (base w h cell : Word) (name : Bytes)
  | loadfnt (fid : Word) (name : Bytes)
  deriving DecidableEq, Repr

end Sys2Proof
end

