-- ==== Sys2Proof/WellFormed.lean ====
section
/-! DEFINITION. Which commands have an encoding: a string must fit in the 255 argument words a header can announce
(R85, R92, R97). Every other operand has the width of its field, so it needs no check. -/

namespace Sys2Proof

/-- The longest string after `fixed` argument words: `NW ≤ 255` leaves `254 - fixed` data words of 4 bytes (R92). -/
def strMax (fixed : Nat) : Nat := 4 * (254 - fixed)

/-- The command has an encoding. -/
def Instr.wf (i : Instr) : Bool :=
  match i with
  | .nop => true
  | .drawen _ => true
  | .prerender => true
  | .postrender => true
  | .clear _ => true
  | .camera _ _ => true
  | .stile _ _ _ => true
  | .stileSpan _ _ _ _ _ => true
  | .sorigin _ _ => true
  | .sflip _ _ => true
  | .sscale _ _ => true
  | .srot _ => true
  | .sclear => true
  | .sdraw _ _ => true
  | .sbox _ _ _ _ => true
  | .fnt name => decide (name.length ≤ strMax 0)
  | .falign _ _ => true
  | .fcolor _ => true
  | .fclear => true
  | .fdraw _ _ text => decide (text.length ≤ strMax 2)
  | .tmap name => decide (name.length ≤ strMax 0)
  | .tmode _ => true
  | .mmode _ => true
  | .mfill _ _ _ _ _ => true
  | .mfillSpan _ _ _ _ _ _ _ => true
  | .mscroll _ _ => true
  | .mclear => true
  | .mdraw => true
  | .palpush _ => true
  | .palpushrgb _ => true
  | .palindex _ => true
  | .palcolor _ => true
  | .palupdate => true
  | .loadtm _ _ _ _ name => decide (name.length ≤ strMax 4)
  | .loadfnt _ name => decide (name.length ≤ strMax 1)

end Sys2Proof
end

