-- ==== Sys2Proof/Decode.lean ====
section
/-! DEFINITION. From command words to commands and back (R85 to R99). Decoding is total on any list of words and rejects by
name; the encoder is written from the same layout. -/

namespace Sys2Proof

/-- `w[hi:lo]`, the field of bits `hi` down to `lo`, read as an unsigned integer (R9). -/
def bits (w : Word) (hi lo : Nat) : Nat := w.toNat / 2 ^ lo % 2 ^ (hi + 1 - lo)

/-- `OPC = hdr[31:24]` (R86). -/
def hdrOpc (hdr : Word) : Nat := bits hdr 31 24

/-- `NW = hdr[23:16]`, the number of argument words that follow (R86). -/
def hdrNw (hdr : Word) : Nat := bits hdr 23 16

/-- `RSV = hdr[15:0]`, must be 0 (R86). -/
def hdrRsv (hdr : Word) : Nat := bits hdr 15 0

/-- The header `{OPC, NW, 0}` (R86). -/
def header (opc nw : Nat) : Word := BitVec.ofNat 32 (opc * 2 ^ 24 + nw * 2 ^ 16)

/-- Why a list of words is not a legal command. The first four are R87's checks, in R87's order; each makes the
command illegal (R99). -/
inductive DecodeError where
  /-- the list is not one header and exactly its `NW` argument words -/
  | notOneCommand
  /-- an opcode that R95 does not list (R98) -/
  | reservedOpcode
  /-- `RSV ≠ 0` -/
  | reservedBits
  /-- an `NW` that the opcode does not allow (R96, R97) -/
  | badWordCount
  /-- the `STR` operand does not exactly fill the rest of the command (R92) -/
  | malformedString
  deriving DecidableEq, Repr

/-! ## Operands -/

/-- `BOOL` (R90): true exactly when the word is not 0. -/
def boolOf (w : Word) : Bool := decide (w ≠ 0)

/-- The word an encoder writes for a `BOOL` (R103: 0 or 1). -/
def boolWord (b : Bool) : Word := if b then 1 else 0

/-- `RGB` (R91): bits 23:0; bits 31:24 are ignored. -/
def rgbOf (w : Word) : BitVec 24 := BitVec.ofNat 24 (bits w 23 0)

/-- The word an encoder writes for an `RGB` (R103: `0x00RRGGBB`). -/
def rgbWord (c : BitVec 24) : Word := BitVec.ofNat 32 c.toNat

/-- The four bytes of a string data word, byte 0 in bits 7:0 (R92). -/
def wordBytes (w : Word) : Bytes :=
  [BitVec.ofNat 8 (bits w 7 0), BitVec.ofNat 8 (bits w 15 8), BitVec.ofNat 8 (bits w 23 16), BitVec.ofNat 8 (bits w 31 24)]

/-- The data word of four string bytes, the first in bits 7:0 (R92). -/
def bytesWord (a b c d : Byte) : Word :=
  BitVec.ofNat 32 (a.toNat + b.toNat * 2 ^ 8 + c.toNat * 2 ^ 16 + d.toNat * 2 ^ 24)

/-- `ceil(n / 4)`, the data words of an `n`-byte string (R92). -/
def strWords (n : Nat) : Nat := (n + 3) / 4

/-- The first `n` bytes of the data words; the rest is padding (R92). -/
def unpackStr (n : Nat) (data : List Word) : Bytes := (data.flatMap wordBytes).take n

/-- The data words of a byte string, padded with zero bytes (R92). -/
def packStr : Bytes → List Word
  | [] => []
  | [a] => [bytesWord a 0 0 0]
  | [a, b] => [bytesWord a b 0 0]
  | [a, b, c] => [bytesWord a b c 0]
  | a :: b :: c :: d :: rest => bytesWord a b c d :: packStr rest

/-- The `STR` operand that fills `ws` (R92, R97): a byte count and exactly `ceil(n / 4)` data words. -/
def strOf (ws : List Word) : Except DecodeError Bytes :=
  match ws with
  | [] => .error .badWordCount
  | n :: data => if data.length = strWords n.toNat then .ok (unpackStr n.toNat data) else .error .malformedString

/-- The argument words of a `STR` operand (R92). -/
def strArgs (t : Bytes) : List Word := BitVec.ofNat 32 t.length :: packStr t

/-! ## Decoding -/

/-- The opcodes of R95; every other value is reserved (R98). -/
def opcodeListed (opc : Nat) : Bool :=
  opc ∈ [0x00, 0x01, 0x02, 0x03, 0x10, 0x11, 0x20, 0x21, 0x22, 0x23, 0x24, 0x25, 0x26, 0x27, 0x30, 0x31, 0x32, 0x33, 0x34]
    ++ [0x40, 0x41, 0x50, 0x51, 0x52, 0x53, 0x54, 0x60, 0x61, 0x62, 0x63, 0x64, 0x70, 0x71]

/-- R95's row of opcode `opc` applied to the argument words: the allowed counts of R96 and R97, the operands in the order
of R94. -/
def decodeArgs (opc : Nat) (args : List Word) : Except DecodeError Instr :=
  match opc with
  | 0x00 => match args with | [] => .ok .nop | _ => .error .badWordCount
  | 0x01 => match args with | [b] => .ok (.drawen (boolOf b)) | _ => .error .badWordCount
  | 0x02 => match args with | [] => .ok .prerender | _ => .error .badWordCount
  | 0x03 => match args with | [] => .ok .postrender | _ => .error .badWordCount
  | 0x10 => match args with | [c] => .ok (.clear (rgbOf c)) | _ => .error .badWordCount
  | 0x11 => match args with | [x, y] => .ok (.camera x y) | _ => .error .badWordCount
  | 0x20 => match args with
    | [id, i, j] => .ok (.stile id i j)
    | [id, i, j, w, h] => .ok (.stileSpan id i j w h)
    | _ => .error .badWordCount
  | 0x21 => match args with | [x, y] => .ok (.sorigin x y) | _ => .error .badWordCount
  | 0x22 => match args with | [h, v] => .ok (.sflip (boolOf h) (boolOf v)) | _ => .error .badWordCount
  | 0x23 => match args with | [h, v] => .ok (.sscale h v) | _ => .error .badWordCount
  | 0x24 => match args with | [d] => .ok (.srot d) | _ => .error .badWordCount
  | 0x25 => match args with | [] => .ok .sclear | _ => .error .badWordCount
  | 0x26 => match args with | [x, y] => .ok (.sdraw x y) | _ => .error .badWordCount
  | 0x27 => match args with | [x, y, w, h] => .ok (.sbox x y w h) | _ => .error .badWordCount
  | 0x30 => (strOf args).map .fnt
  | 0x31 => match args with | [x, y] => .ok (.falign x y) | _ => .error .badWordCount
  | 0x32 => match args with | [c] => .ok (.fcolor (rgbOf c)) | _ => .error .badWordCount
  | 0x33 => match args with | [] => .ok .fclear | _ => .error .badWordCount
  | 0x34 => match args with | x :: y :: str => (strOf str).map (.fdraw x y) | _ => .error .badWordCount
  | 0x40 => (strOf args).map .tmap
  | 0x41 => match args with | [v] => .ok (.tmode v) | _ => .error .badWordCount
  | 0x50 => match args with | [v] => .ok (.mmode v) | _ => .error .badWordCount
  | 0x51 => match args with
    | [x, y, id, i, j] => .ok (.mfill x y id i j)
    | [x, y, id, i, j, w, h] => .ok (.mfillSpan x y id i j w h)
    | _ => .error .badWordCount
  | 0x52 => match args with | [x, y] => .ok (.mscroll x y) | _ => .error .badWordCount
  | 0x53 => match args with | [] => .ok .mclear | _ => .error .badWordCount
  | 0x54 => match args with | [] => .ok .mdraw | _ => .error .badWordCount
  | 0x60 => match args with | [c] => .ok (.palpush c) | _ => .error .badWordCount
  | 0x61 => match args with | [c] => .ok (.palpushrgb (rgbOf c)) | _ => .error .badWordCount
  | 0x62 => match args with | [c] => .ok (.palindex c) | _ => .error .badWordCount
  | 0x63 => match args with | [i] => .ok (.palcolor i) | _ => .error .badWordCount
  | 0x64 => match args with | [] => .ok .palupdate | _ => .error .badWordCount
  | 0x70 => match args with
    | base :: w :: h :: cell :: str => (strOf str).map (.loadtm base w h cell)
    | _ => .error .badWordCount
  | 0x71 => match args with | fid :: str => (strOf str).map (.loadfnt fid) | _ => .error .badWordCount
  | _ => .error .reservedOpcode

/-- Does the list hold one header and exactly its `NW` argument words (R85)? -/
def wholeCommand (ws : List Word) : Bool :=
  match ws with
  | [] => false
  | hdr :: args => args.length == hdrNw hdr

/-- The command that a list of words is, by R87's checks in R87's order. Gating is not a decode check that changes what
the command is; `gated` in `Machine/Operands.lean` is R101. -/
def decode (ws : List Word) : Except DecodeError Instr :=
  match ws with
  | [] => .error .notOneCommand
  | hdr :: args =>
    if args.length ≠ hdrNw hdr then .error .notOneCommand
    else if !opcodeListed (hdrOpc hdr) then .error .reservedOpcode
    else if hdrRsv hdr ≠ 0 then .error .reservedBits
    else decodeArgs (hdrOpc hdr) args

/-! ## Encoding -/

/-- The opcode of a command (R95). -/
def Instr.opcode (i : Instr) : Nat :=
  match i with
  | .nop => 0x00
  | .drawen _ => 0x01
  | .prerender => 0x02
  | .postrender => 0x03
  | .clear _ => 0x10
  | .camera _ _ => 0x11
  | .stile _ _ _ => 0x20
  | .stileSpan _ _ _ _ _ => 0x20
  | .sorigin _ _ => 0x21
  | .sflip _ _ => 0x22
  | .sscale _ _ => 0x23
  | .srot _ => 0x24
  | .sclear => 0x25
  | .sdraw _ _ => 0x26
  | .sbox _ _ _ _ => 0x27
  | .fnt _ => 0x30
  | .falign _ _ => 0x31
  | .fcolor _ => 0x32
  | .fclear => 0x33
  | .fdraw _ _ _ => 0x34
  | .tmap _ => 0x40
  | .tmode _ => 0x41
  | .mmode _ => 0x50
  | .mfill _ _ _ _ _ => 0x51
  | .mfillSpan _ _ _ _ _ _ _ => 0x51
  | .mscroll _ _ => 0x52
  | .mclear => 0x53
  | .mdraw => 0x54
  | .palpush _ => 0x60
  | .palpushrgb _ => 0x61
  | .palindex _ => 0x62
  | .palcolor _ => 0x63
  | .palupdate => 0x64
  | .loadtm _ _ _ _ _ => 0x70
  | .loadfnt _ _ => 0x71

/-- The argument words of a command, in the order of R94. -/
def Instr.args (i : Instr) : List Word :=
  match i with
  | .nop => []
  | .drawen b => [boolWord b]
  | .prerender => []
  | .postrender => []
  | .clear c => [rgbWord c]
  | .camera x y => [x, y]
  | .stile id i j => [id, i, j]
  | .stileSpan id i j w h => [id, i, j, w, h]
  | .sorigin x y => [x, y]
  | .sflip h v => [boolWord h, boolWord v]
  | .sscale h v => [h, v]
  | .srot d => [d]
  | .sclear => []
  | .sdraw x y => [x, y]
  | .sbox x y w h => [x, y, w, h]
  | .fnt name => strArgs name
  | .falign x y => [x, y]
  | .fcolor c => [rgbWord c]
  | .fclear => []
  | .fdraw x y text => x :: y :: strArgs text
  | .tmap name => strArgs name
  | .tmode v => [v]
  | .mmode v => [v]
  | .mfill x y id i j => [x, y, id, i, j]
  | .mfillSpan x y id i j w h => [x, y, id, i, j, w, h]
  | .mscroll x y => [x, y]
  | .mclear => []
  | .mdraw => []
  | .palpush c => [c]
  | .palpushrgb c => [rgbWord c]
  | .palindex c => [c]
  | .palcolor i => [i]
  | .palupdate => []
  | .loadtm base w h cell name => base :: w :: h :: cell :: strArgs name
  | .loadfnt fid name => fid :: strArgs name

/-- The words of a command: `{OPC, NW, 0}` and the argument words (R85, R86). -/
def encode (i : Instr) : List Word := header i.opcode i.args.length :: i.args

/-! ## The opcode table's numbering -/

/-- The words of an instruction given as one number in the numbering of spec/opcode_table.json: word `k` is bits
`32k+31 .. 32k`, every bit from `nbits` up is 0, and the header's `NW` says how many words there are. -/
def tableWords (nbits w : Nat) : List Word :=
  let v := w % 2 ^ nbits
  let hdr := BitVec.ofNat 32 v
  hdr :: (List.range (hdrNw hdr)).map fun k => BitVec.ofNat 32 (v / 2 ^ (32 * (k + 1)))

/-- What `decode` makes of an instruction numbered as spec/opcode_table.json numbers it. -/
def decodeTableWord (nbits w : Nat) : Option Instr := (decode (tableWords nbits w)).toOption

end Sys2Proof
end

