-- ==== Sys2Proof/Config.lean ====
section
/-! DEFINITION. What is fixed for one machine (the parameters of rule R7), the platform functions, and the
free values: opaque constants with no body, about which nothing can be proved. -/

namespace Sys2Proof

/-- The pixel composition mode `COMPOSE` (R7, R72). -/
inductive Compose where
  /-- every covered texel replaces the pixel -/
  | overwrite
  /-- index 0 is a transparent key -/
  | key0
  deriving DecidableEq, Repr

/-- What a grid index outside the window does, `GRID_OOB` (R7, R164). -/
inductive GridOob where
  /-- the tile is not stored -/
  | drop
  /-- the index is reduced modulo the window -/
  | wrap
  deriving DecidableEq, Repr

/-- The parameters of R7 that are values. They are configuration, not state (R20, R282): the machine holds
them in a field that no step writes (log entry 1). -/
structure Config where
  /-- `SWIDTH`, screen width in pixels -/
  swidth : Nat
  /-- `SHEIGHT`, screen height in pixels -/
  sheight : Nat
  /-- `NUM_SPRITES`, the per-frame draw budget -/
  numSprites : Nat
  /-- `PAL_CAP`, palette capacity in entries -/
  palCap : Nat
  /-- `TNUM`, a script constant with no architectural effect -/
  tnum : Nat
  /-- `TM_MAX`, capacity of the tilemap registry -/
  tmMax : Nat
  /-- `FONT_MAX`, capacity of the font registry -/
  fontMax : Nat
  /-- `TEXMEM_BYTES`, size of texture memory -/
  texmemBytes : Nat
  /-- `FIFO_DEPTH`, command FIFO depth in words -/
  fifoDepth : Nat
  /-- `PPU_BASE`, bus address of the register window -/
  ppuBase : Nat
  /-- `COMPOSE` -/
  compose : Compose
  /-- `GRID_OOB` -/
  gridOob : GridOob
  deriving DecidableEq, Repr

/-- The legal ranges R7 and R123 give the parameters. -/
def Config.wf (c : Config) : Bool :=
  1 ≤ c.swidth && 1 ≤ c.sheight && 2 ≤ c.palCap && c.palCap ≤ 256 && 1 ≤ c.tmMax && 1 ≤ c.fontMax
    && c.texmemBytes % 4 == 0 && 1 ≤ c.fifoDepth

/-- `DEFAULT_TILE`, the default tile resolution in pixels (R7, D13). -/
abbrev defaultTile : Nat := 8

/-- `G`, the cell size of the scrolling tile grid in pixels (R7, D36). -/
abbrev gridCell : Nat := 8

/-- `GW = ceil(SWIDTH / G) + 1` (R8). -/
def Config.gw (c : Config) : Nat := (c.swidth + (gridCell - 1)) / gridCell + 1

/-- `GH = ceil(SHEIGHT / G) + 1` (R8). -/
def Config.gh (c : Config) : Nat := (c.sheight + (gridCell - 1)) / gridCell + 1

/-! ## The OPEN parameters (R7): free -/

/-- `SWIDTH - 1`, OPEN. -/
opaque Config.openSwidthPred : Nat
/-- `SHEIGHT - 1`, OPEN. -/
opaque Config.openSheightPred : Nat
/-- `NUM_SPRITES`, OPEN. -/
opaque Config.openNumSprites : Nat
/-- `TNUM`, OPEN. -/
opaque Config.openTnum : Nat
/-- `TM_MAX - 1`, OPEN. -/
opaque Config.openTmMaxPred : Nat
/-- `FONT_MAX - 1`, OPEN. -/
opaque Config.openFontMaxPred : Nat
/-- `TEXMEM_BYTES / 4`, OPEN. -/
opaque Config.openTexmemWords : Nat
/-- `FIFO_DEPTH - 1`, OPEN. -/
opaque Config.openFifoDepthPred : Nat
/-- `PPU_BASE`, OPEN. -/
opaque Config.openPpuBase : Nat

/-- The machine's parameters at `State.reset`: OPEN ones free within R7's range, decided ones as R7 decides them
(`PAL_CAP = 64`, `COMPOSE = overwrite`, `GRID_OOB = drop`; log entry 2). -/
def Config.platform : Config where
  swidth := Config.openSwidthPred + 1
  sheight := Config.openSheightPred + 1
  numSprites := Config.openNumSprites
  palCap := 64
  tnum := Config.openTnum
  tmMax := Config.openTmMaxPred + 1
  fontMax := Config.openFontMaxPred + 1
  texmemBytes := 4 * Config.openTexmemWords
  fifoDepth := Config.openFifoDepthPred + 1
  ppuBase := Config.openPpuBase
  compose := .overwrite
  gridOob := .drop

/-! ## Platform functions (R7): OPEN, free -/

/-- What a platform font answers for a text (R15): its size in pixels and its covered pixels. -/
structure Raster where
  /-- text width -/
  tw : Nat
  /-- text height -/
  th : Nat
  /-- the covered pixels; a pair outside `[0, tw) × [0, th)` is not in R15's `cov` and is ignored -/
  cov : List (Nat × Nat)
  deriving DecidableEq, Repr, Inhabited

/-- `FontRaster(fid, t)` (R15): depends on the font id and the text alone; nothing else is assumed (log entry 10). -/
opaque Config.fontRaster : Int → Bytes → Raster

/-- The arguments of `RotSample` (R183). -/
structure RotQuery where
  t : Fix
  ex : Fix
  ey : Fix
  ox : Fix
  oy : Fix
  qx : Fix
  qy : Fix
  vw : Nat
  vh : Nat
  px : Nat
  py : Nat
  deriving DecidableEq, Repr

/-- `RotSample(t, ex, ey, ox, oy, Qx, Qy, vw, vh, px, py)` (R183) for angles that are no multiple of 90 degrees.
It depends on its arguments alone; nothing else is assumed. `Sprite.lean` reduces the pair into the view (log entry 9). -/
opaque Config.rotSample : RotQuery → Option (Nat × Nat)

/-! ## Free values -/

/-- The framebuffer index that pixel number `i` (row-major) holds after reset number `r` (R32, R281). -/
opaque Config.freeFb : (r i : Nat) → Byte

/-- The texture-memory byte at address `a` after reset number `r` (R33, R281). -/
opaque Config.freeTex : (r a : Nat) → Byte

/-- Draw number `k` of R69: an `OOB` texel writes nothing (`none`) or some index. -/
opaque Config.freeOob : (k : Nat) → Option Byte

/-- Draw number `k` of R120: the colour presented for an index beyond the lookup texture. -/
opaque Config.freeColor : (k : Nat) → Word

/-- Draw number `k` of R215: the count of a degenerate nine-slice, before it is reduced into `[0, B]`. -/
opaque Config.freeCount : (k : Nat) → Nat

/-- Draw number `k` of R79(c): which of the candidate bytes a raced access gives. -/
opaque Config.freeRace : (k : Nat) → Nat

end Sys2Proof
end

