-- ==== Sys2Proof/Machine/State.lean ====
section
/-! DEFINITION. The architectural state of the block (R20), as plain data, and the state after reset (R281). -/

namespace Sys2Proof.Machine

/-- A texture view (R14): a window `(vx, vy, vw, vh)` onto the image of tilemap `img`. -/
structure View where
  img : Nat
  vx : Int
  vy : Int
  vw : Nat
  vh : Nat
  deriving DecidableEq, Repr

/-- A `TexRef` (R14): `none` is `EMPTY`. -/
abbrev TexRef := Option View

/-- Texture memory, sparse: the bytes that have been written since the last reset, by rising address (`Memory.wf`,
`Machine/Ops.lean`). -/
abbrev Memory := List Host.Cell

/-- An entry of the tilemap registry (R34). -/
structure TmEntry where
  name : Bytes
  base : Nat
  w : Nat
  h : Nat
  cell : Nat
  deriving DecidableEq, Repr

/-- An entry of the font registry (R35). -/
structure FontEntry where
  name : Bytes
  fid : Int
  deriving DecidableEq, Repr

/-- The next-sprite attributes `NS` (R36). -/
structure NextSprite where
  tex : TexRef
  ox : Fix
  oy : Fix
  rot : Fix
  flipH : Bool
  flipV : Bool
  scaleH : Fix
  scaleV : Fix
  deriving DecidableEq, Repr

/-- The reset and `SCLEAR` values of `NS` (R36, R190). -/
def NextSprite.default : NextSprite where
  tex := none
  ox := 0
  oy := 0
  rot := 0
  flipH := false
  flipV := false
  scaleH := fixOne
  scaleV := fixOne

/-- The next-text attributes `NT` (R38); `font = none` is `NONE`. -/
structure NextText where
  font : Option Nat
  alignX : Fix
  alignY : Fix
  color : Byte
  deriving DecidableEq, Repr

/-- The reset and `FCLEAR` values of `NT` (R38, R243). -/
def NextText.default : NextText where
  font := none
  alignX := 0
  alignY := 0
  color := 0

/-- The scrolling tile grid (R39). `cells` is row-major: `GRID.cell[gy][gx]` is number `gy * GW + gx`. -/
structure Grid where
  cells : List TexRef
  mode : Nat
  sx : Int
  sy : Int
  deriving DecidableEq, Repr

/-- The model's record of one host write to texture memory that races with pending commands (R79(c), log entry 11):
the byte before, the byte written, and how many command words had been written to `CMD` by then. -/
structure Race where
  addr : Nat
  old : Byte
  new : Byte
  limit : Nat
  deriving DecidableEq, Repr

/-- Why the machine stops with a fault. It never does: no command traps or stops the command processor (R260, R262), and
the block's own memory accesses are inside texture memory (R63). So there is no constructor; nothing raises one (log
entry 16). -/
inductive Fault where
  deriving DecidableEq, Repr

/-- Why something is refused. -/
inductive Refusal where
  /-- raised by an arm of `exec` for an instruction that has no meaning yet; no arm does now. Safe: no claim can rest on it. -/
  | notModelled (mnemonic : String)
  /-- raised by the register port for an access that is not an aligned 32-bit one inside the window (R42). Safe: the access
  has no step. -/
  | registerAccess
  /-- raised by the texture-memory port for an access that is misaligned, of a size other than 1, 2 or 4, or past
  `TEXMEM_BYTES` (R62). Safe: the access has no step. -/
  | texmemAccess
  /-- raised by the bus for an address outside the register window: it is no access to this block (R41, log entry 24). Safe:
  the access has no step. -/
  | notThisBlock
  deriving DecidableEq, Repr

/-- The architectural state (R20), the configuration, and the model's own bookkeeping. -/
structure State where
  /-- the parameters (R7), written by nothing (R282) -/
  cfg : Config
  /-- `DRAW_EN` (R23) -/
  drawEn : Bool
  /-- `SC`, the draw counter (R24) -/
  sc : Nat
  /-- `CAM.camX` (R25) -/
  camX : Fix
  /-- `CAM.camY` (R25) -/
  camY : Fix
  /-- `TMODE`, the tile resolution (R26) -/
  tmode : Nat
  /-- `RESULT` (R27) -/
  result : Word
  /-- `AUX` (R28) -/
  aux : Word
  /-- `STATUS.ERR_ILL` (R29) -/
  errIll : Bool
  /-- `STATUS.LOG_NF` (R29) -/
  logNf : Bool
  /-- `STATUS.PAL_OVF` (R29) -/
  palOvf : Bool
  /-- `PAL`: entries `0 .. PAL.len - 1` (R30) -/
  pal : List Word
  /-- `LUT`: entries `0 .. LUT.len - 1` (R31) -/
  lut : List Word
  /-- `FB`, row-major: pixel `(px, py)` is number `py * SWIDTH + px` (R32) -/
  fb : List Byte
  /-- `TEXMEM` (R33) -/
  texmem : Memory
  /-- `TM`, by load order (R34) -/
  tm : List TmEntry
  /-- `FONT`, by load order (R35) -/
  font : List FontEntry
  /-- `NS` (R36) -/
  ns : NextSprite
  /-- `NT` (R38) -/
  nt : NextText
  /-- `GRID` (R39) -/
  grid : Grid
  /-- the command FIFO, oldest word first (R40) -/
  fifo : List Word
  /-- the assembly state: the words consumed of the command that has not executed yet, header first (R40) -/
  asm : List Word
  /-- the command-stream position: words consumed since reset (R22) -/
  pos : Nat
  /-- the model's: the images delivered by the Present output, oldest first (R226, log entry 20) -/
  presents : List (List Word)
  /-- the model's: host writes that race with pending commands (R79(c), log entry 11) -/
  raced : List Race
  /-- the model's: how many resets came before this one (log entry 22) -/
  resets : Nat
  /-- the model's: the number of the next free value (log entry 23) -/
  draws : Nat
  deriving DecidableEq, Repr

/-- The state right after reset number `r` of a machine with parameters `c` (R281). `FB` and `TEXMEM` are unspecified: free
values (R32, R33, log entries 4 and 5). The camera is `(SWIDTH/2, SHEIGHT/2)` (R25). -/
def State.resetWith (c : Config) (r : Nat) : State where
  cfg := c
  drawEn := false
  sc := 0
  camX := c.swidth * 32768
  camY := c.sheight * 32768
  tmode := defaultTile
  result := 0
  aux := 0
  errIll := false
  logNf := false
  palOvf := false
  pal := [0]
  lut := [0]
  fb := (List.range (c.swidth * c.sheight)).map (Config.freeFb r)
  texmem := []
  tm := []
  font := []
  ns := .default
  nt := .default
  grid := { cells := List.replicate (c.gw * c.gh) none, mode := 1, sx := 0, sy := 0 }
  fifo := []
  asm := []
  pos := 0
  presents := []
  raced := []
  resets := r
  draws := 0

/-- The machine right after power-on reset (R280, R281). -/
def State.reset : State := State.resetWith Config.platform 0

end Sys2Proof.Machine
end

