-- ==== Sys2Proof/Machine/Flags.lean ====
section
/-! DEFINITION. The `STATUS` register (R29): its sticky bits, who sets them (R263), how the host clears them (R44). -/

namespace Sys2Proof.Machine

/-- `log NotFound` (R263): `STATUS.LOG_NF <- 1`. -/
def logNotFound (s : State) : State := { s with logNf := true }

/-- `log PalOverflow` (R263): `STATUS.PAL_OVF <- 1`. -/
def logPalOverflow (s : State) : State := { s with palOvf := true }

/-- What an illegal command does (R99): `STATUS.ERR_ILL <- 1` and nothing else. -/
def discardIllegal (s : State) : State := { s with errIll := true }

/-- `STATUS` as the host reads it (R29): bits 31:4 read 0. -/
def statusWord (s : State) : Word :=
  BitVec.ofNat 32 (s.drawEn.toNat + 2 * s.errIll.toNat + 4 * s.logNf.toNat + 8 * s.palOvf.toNat)

/-- A host write of `w` to `STATUS` (R44): each sticky bit written 1 is cleared; every other bit of `w` is ignored. -/
def statusWrite (w : Word) (s : State) : State :=
  { s with
    errIll := s.errIll && bits w 1 1 == 0
    logNf := s.logNf && bits w 2 2 == 0
    palOvf := s.palOvf && bits w 3 3 == 0 }

end Sys2Proof.Machine
end

