-- ==== Sys2Proof/Machine/Ops.lean ====
section
/-! DEFINITION. The named operations over the state: field writes, texture memory (R61 to R69), the framebuffer (R70 to R73),
and the command stream (R40, R86, R99). There is no exception entry and no return from one to model: the spec has neither
(R262, R267, R268); the one shared degraded outcome of a command is `discardIllegal` (R99). -/

namespace Sys2Proof.Machine

/-! ## Field writes -/

/-- `DRAW_EN <- v` -/
def State.setDrawEn (s : State) (v : Bool) : State := { s with drawEn := v }
/-- `SC <- v` -/
def State.setSc (s : State) (v : Nat) : State := { s with sc := v }
/-- `CAM <- (x, y)` -/
def State.setCam (s : State) (x y : Fix) : State := { s with camX := x, camY := y }
/-- `TMODE <- v` -/
def State.setTmode (s : State) (v : Nat) : State := { s with tmode := v }
/-- `Result(v)` (R27): `RESULT <- v mod 2^32` -/
def State.setResult (s : State) (v : Int) : State := { s with result := BitVec.ofInt 32 v }
/-- `AUX <- v` -/
def State.setAux (s : State) (v : Nat) : State := { s with aux := BitVec.ofNat 32 v }
/-- write `PAL` -/
def State.setPal (s : State) (v : List Word) : State := { s with pal := v }
/-- write `LUT` -/
def State.setLut (s : State) (v : List Word) : State := { s with lut := v }
/-- write `FB` -/
def State.setFb (s : State) (v : List Byte) : State := { s with fb := v }
/-- write `TEXMEM` -/
def State.setTexmem (s : State) (v : Memory) : State := { s with texmem := v }
/-- write `TM` -/
def State.setTm (s : State) (v : List TmEntry) : State := { s with tm := v }
/-- write `FONT` -/
def State.setFont (s : State) (v : List FontEntry) : State := { s with font := v }
/-- write `NS` -/
def State.setNs (s : State) (v : NextSprite) : State := { s with ns := v }
/-- write `NT` -/
def State.setNt (s : State) (v : NextText) : State := { s with nt := v }
/-- write `GRID` -/
def State.setGrid (s : State) (v : Grid) : State := { s with grid := v }
/-- deliver one image to the Present output (R226) -/
def State.addPresent (s : State) (img : List Word) : State := { s with presents := s.presents ++ [img] }
/-- the next free value has been used: the one after it is next (log entry 23) -/
def State.setDraws (s : State) (v : Nat) : State := { s with draws := v }
/-- one free value has been used -/
def State.advance (s : State) : State := s.setDraws (s.draws + 1)

/-! ## Texture memory -/

/-- The byte listed for an address; nothing has written an unlisted one, so memory holds no value for it. -/
def Memory.read : Memory → Nat → Option Byte
  | [], _ => none
  | c :: m, a => if a = c.1 then some c.2 else Memory.read m a

/-- Store a byte at its place in the rising order of addresses. -/
def Memory.write : Memory → Nat → Byte → Memory
  | [], a, v => [(a, v)]
  | c :: m, a, v => if a < c.1 then (a, v) :: c :: m else if a = c.1 then (a, v) :: m else c :: Memory.write m a v

/-- The canonical form: addresses strictly rising. No entry can equal what an unlisted address reads as, which is no value. -/
abbrev Memory.wf (m : Memory) : Prop := m.Pairwise fun c d => c.1 < d.1

/-- The byte at `TEXMEM` address `a`: the one last stored, or the contents since the last reset, unspecified and so free (R33,
R281, log entry 5). -/
def State.texByte (s : State) (a : Nat) : Byte := (Memory.read s.texmem a).getD (Config.freeTex s.resets a)

/-- Store byte `v` at `TEXMEM` address `a`. -/
def State.storeByte (s : State) (a : Nat) (v : Byte) : State := s.setTexmem (Memory.write s.texmem a v)

/-- `pix(B, w, x, y)` (R61): the address of pixel `(x, y)` of an image of width `w` at base `B`. -/
def pix (base w x y : Nat) : Nat := base + 4 * (y * w + x)

/-- The host writes to address `a` that race with the command now executing (R79(c)). -/
def racesAt (s : State) (a : Nat) : List Race := s.raced.filter fun r => r.addr = a

/-- `TexRead8(a)` (R63). Where a host write races (R79(c)) the byte is the stored one or any old or new byte of those
writes, a free choice (log entry 11). -/
def texRead8 (a : Nat) (s : State) : Byte × State :=
  match racesAt s a with
  | [] => (s.texByte a, s)
  | r :: rs =>
    let opts := s.texByte a :: (r :: rs).flatMap fun r => [r.old, r.new]
    (opts.getD (Config.freeRace s.draws % opts.length) (s.texByte a), s.advance)

/-- `TexWrite8(a, v)` (R63). Where a host write races, that write may land after this one: the byte left is `v` or the new
byte of such a write, a free choice (log entry 11). -/
def texWrite8 (a : Nat) (v : Byte) (s : State) : State :=
  match racesAt s a with
  | [] => s.storeByte a v
  | r :: rs =>
    let opts := v :: (r :: rs).map fun r => r.new
    (s.storeByte a (opts.getD (Config.freeRace s.draws % opts.length) v)).advance

/-! ## Texels and pixels -/

/-- `Texel(V, tx, ty)` (R68); `none` is `OOB` (R69). A view of an image that is not registered, which no run makes, is all
`OOB` (log entry 21). -/
def texel (v : View) (tx ty : Nat) (s : State) : Option Byte × State :=
  match s.tm[v.img]? with
  | none => (none, s)
  | some e =>
    let ix := v.vx + tx
    let iy := v.vy + ty
    if 0 ≤ ix ∧ ix < e.w ∧ 0 ≤ iy ∧ iy < e.h then
      let r := texRead8 (pix e.base e.w ix.toNat iy.toNat + 2) s
      (some r.1, r.2)
    else (none, s)

/-- Is the pixel on the screen (R13, R70)? -/
abbrev onScreen (c : Config) (px py : Int) : Prop := 0 ≤ px ∧ px < c.swidth ∧ 0 ≤ py ∧ py < c.sheight

/-- The place of pixel `(px, py)` in `FB` (R32). -/
def fbIndex (c : Config) (px py : Nat) : Nat := py * c.swidth + px

/-- The last lines of `Plot` (R72): an index reaches `FB` unless index 0 is a transparent key. -/
def plotIndex (px py : Nat) (v : Byte) (s : State) : State :=
  if s.cfg.compose = .key0 ∧ v = 0 then s else s.setFb (s.fb.set (fbIndex s.cfg px py) v)

/-- `Plot(px, py, v)` (R72): clipped to the screen (R70); an `OOB` value writes nothing or some index, a free choice per
pixel (R69, log entry 6). -/
def plot (px py : Int) (v : Option Byte) (s : State) : State :=
  if onScreen s.cfg px py then
    match v with
    | some b => plotIndex px.toNat py.toNat b s
    | none =>
      match Config.freeOob s.draws with
      | none => s.advance
      | some b => plotIndex px.toNat py.toNat b s.advance
  else s

/-- `Plot(px, py, Texel(V, tx, ty))`. -/
def plotTexel (v : View) (px py : Int) (tx ty : Nat) (s : State) : State :=
  let r := texel v tx ty s
  plot px py r.1 r.2

/-- The pairs of `[0, w) × [0, h)` in row-major order: y outer, x inner (R71). -/
def rowMajor (w h : Nat) : List (Nat × Nat) := (List.range h).flatMap fun y => (List.range w).map fun x => (x, y)

/-- The pairs of `[0, w) × [0, h)` in column-major order: x outer, y inner (R131). -/
def columnMajor (w h : Nat) : List (Nat × Nat) := (List.range w).flatMap fun x => (List.range h).map fun y => (x, y)

/-- `Blit(V, X0, Y0)` (R73). -/
def blit (t : TexRef) (x0 y0 : Int) (s : State) : State :=
  match t with
  | none => s
  | some v => (rowMajor v.vw v.vh).foldl (fun s p => plotTexel v (x0 + p.1) (y0 + p.2) p.1 p.2 s) s

/-! ## The command stream -/

/-- Every word of the command in assembly has arrived (R40, R87). -/
def commandReady (s : State) : Bool := wholeCommand s.asm

/-- The command processor consumes the oldest word of the FIFO into the assembly state (R40); the command-stream position
counts it (R22). -/
def consumeWord (s : State) : State :=
  match s.fifo with
  | [] => s
  | w :: rest => { s with fifo := rest, asm := s.asm ++ [w], pos := s.pos + 1 }

/-- The assembled command leaves the assembly state to be executed. Of the host's racing writes only those performed after
this command's header was written still race (R79(b), R79(c)). -/
def State.retire (s : State) : State :=
  { s with asm := [], raced := s.raced.filter fun r => s.pos - s.asm.length < r.limit }

/-- No command word is waiting or in assembly: every command written has completed (R46). -/
def State.quiet (s : State) : Bool := s.asm.isEmpty && s.fifo.isEmpty

end Sys2Proof.Machine
end

