-- ==== Sys2Proof/Machine/Operands.lean ====
section
/-! DEFINITION. Operand values (R88 to R93), exact rounding (R10), colour operands (R118), world positions (R181), and the gate
every gated command passes (R101). -/

namespace Sys2Proof.Machine

/-! ## Operand words as values -/

/-- `INT` (R88): `sext_32(w)`. -/
def intOf (w : Word) : Int := w.toInt

/-- `Q` (R89): `q(w) = sext_32(w) / 65536`, as a `Fix`. -/
def fixOf (w : Word) : Fix := w.toInt

/-- The RGBA colour an `RGB` operand stands for (R91): `{r, g, b, 0xFF}`. -/
def rgbaOf (c : BitVec 24) : Word := BitVec.ofNat 32 (c.toNat * 256 + 255)

/-! ## Exact rounding (R10) -/

/-- `floor(q)` of a `Fix`. -/
def fixFloor (q : Fix) : Int := q / fixOne

/-- `ceil(q)` of a `Fix`. -/
def fixCeil (q : Fix) : Int := -(-q / fixOne)

/-- `ceil(n / d)` for an integer `n` and a positive `d`. -/
def ceilDiv (n : Int) (d : Nat) : Int := -(-n / d)

/-! ## Colours -/

/-- `PalIndex(c)` (R115): the lowest index that holds `c`; `none` is `NONE`. -/
def palIndex (c : Word) (s : State) : Option Nat := s.pal.findIdx? (fun e => e == c)

/-- `PalPush(c)` (R111): the index of `c`, appended if it is new and there is room; on overflow index 0, logged. -/
def palPush (c : Word) (s : State) : Nat × State :=
  match palIndex c s with
  | some k => (k, s)
  | none =>
    if s.pal.length < s.cfg.palCap then (s.pal.length, s.setPal (s.pal ++ [c]))
    else (0, logPalOverflow s)

/-- `ColorIndex(c)` (R118): the index of the opaque colour, 0 when it is unknown; nothing is pushed or logged. -/
def colorIndex (c : BitVec 24) (s : State) : Byte := BitVec.ofNat 8 ((palIndex (rgbaOf c) s).getD 0)

/-! ## Positions -/

/-- `ScreenPos(x, y)` (R181): `(x - (camX - SWIDTH/2), y - (camY - SHEIGHT/2))`, exactly. -/
def screenPos (x y : Fix) (s : State) : Fix × Fix :=
  (x - (s.camX - s.cfg.swidth * 32768), y - (s.camY - s.cfg.sheight * 32768))

/-! ## Gating -/

/-- R101: while `DRAW_EN = 0` a gated command is consumed with no effect at all. -/
def gated (effect : State → State) (s : State) : State := if s.drawEn then effect s else s

end Sys2Proof.Machine
end

