-- ==== Sys2Proof/Machine/Assets.lean ====
section
/-! DEFINITION. The palettizer and asset registration (42_palettizer_assets.md). Neither command is gated. -/

namespace Sys2Proof.Machine

/-- The tile resolutions of R34, R133 and R152. -/
def tileSizes : List Int := [8, 16, 24, 32, 64, 128]

/-- One of the six tile resolutions, or `DEFAULT_TILE` (R133, R152). -/
def tileSizeOr (v : Int) : Nat := if v ∈ tileSizes then v.toNat else defaultTile

/-- The reads of a visit (R132): the colour of the pixel at `a`. -/
def readPixel (a : Nat) (s : State) : Word × State :=
  let r := texRead8 a s
  let g := texRead8 (a + 1) r.2
  let b := texRead8 (a + 2) g.2
  let al := texRead8 (a + 3) b.2
  (r.1 ++ g.1 ++ b.1 ++ al.1, al.2)

/-- The writes of a visit (R132): the pixel at `a` becomes `(0, 0, index, 255)`. -/
def writePixel (a i : Nat) (s : State) : State :=
  texWrite8 (a + 3) 255 (texWrite8 (a + 2) (BitVec.ofNat 8 i) (texWrite8 (a + 1) 0 (texWrite8 a 0 s)))

/-- One visit of `Palettize` (R132): the pixel's colour is pushed and its bytes are written. Gives the index and the state after. -/
def palettizePixel (a : Nat) (s : State) : Nat × State :=
  let c := readPixel a s
  let i := palPush c.1 c.2
  (i.1, writePixel a i.1 i.2)

/-- `Palettize(base, w, h)` (R132): column-major (R131). Gives the set of indices touched, without repeats, and the state
after. Every pixel of the image is written, also one that lies in a registered image too (log entry 27, DESIGN CHOICE). -/
def palettize (base w h : Nat) (s : State) : List Nat × State :=
  (columnMajor w h).foldl
    (fun acc p =>
      let r := palettizePixel (pix base w p.1 p.2) acc.2
      (acc.1.insert r.1, r.2))
    ([], s)

/-- The checks of `LOADTM` (R133): `w·h` is exact, so nothing wraps. R133 has no check against the images already registered, so a load
over one is accepted; R65, which has the block never write a registered image's bytes after its load, does not add one (log entry 27,
DESIGN CHOICE). -/
def loadOk (base w h : Int) (s : State) : Bool :=
  decide (0 ≤ base) && decide (base % 4 = 0) && decide (1 ≤ w) && decide (1 ≤ h)
    && decide (base + 4 * w * h ≤ s.cfg.texmemBytes) && decide (s.tm.length < s.cfg.tmMax)

/-- The body of `LOADTM` after its checks (R133): palettize, register, `Result`, `AUX`. -/
def loadImage (base w h cell : Int) (name : Bytes) (s : State) : State :=
  let r := palettize base.toNat w.toNat h.toNat s
  let entry : TmEntry := { name := name, base := base.toNat, w := w.toNat, h := h.toNat, cell := tileSizeOr cell }
  ((r.2.setTm (r.2.tm ++ [entry])).setResult r.2.tm.length).setAux r.1.length

/-- `LOADTM base, w, h, cell, name` (R133): a rejected load changes `RESULT` only. -/
def execLoadtm (base w h cell : Word) (name : Bytes) (s : State) : Host.Outcome State Fault Refusal :=
  .next (if loadOk (intOf base) (intOf w) (intOf h) s then loadImage (intOf base) (intOf w) (intOf h) (intOf cell) name s
    else s.setResult (-1))

/-- `LOADFNT fid, name` (R140). -/
def execLoadfnt (fid : Word) (name : Bytes) (s : State) : Host.Outcome State Fault Refusal :=
  .next (if s.cfg.fontMax ≤ s.font.length then s.setResult (-1)
    else (s.setFont (s.font ++ [{ name := name, fid := intOf fid }])).setResult s.font.length)

end Sys2Proof.Machine
end

