-- ==== Sys2Proof/Machine/Control.lean ====
section
/-! DEFINITION. Frame control, draw enable, clear and camera (47_ppu_control.md) and the colour-remap stage (R120). -/

namespace Sys2Proof.Machine

/-- `NOP` (R220): no state changes. -/
def execNop (s : State) : Host.Outcome State Fault Refusal := .next s

/-- `DRAWEN b` (R221). -/
def execDrawen (b : Bool) (s : State) : Host.Outcome State Fault Refusal := .next (s.setDrawEn b)

/-- `PRERENDER` (R223): no state changes; it does not reset `SC` (C1). -/
def execPrerender (s : State) : Host.Outcome State Fault Refusal := .next s

/-- `LutColor(v)` (R120) when `k` free values have been used: the colour, and how many have been used after it. -/
def lutColor (lut : List Word) (v : Byte) (k : Nat) : Word × Nat :=
  match lut[v.toNat]? with
  | some c => (c, k)
  | none => (Config.freeColor k, k + 1)

/-- The colour-remap stage over the pixels of a frame, in row-major order (R226): the image, and how many free values
have been used after it. -/
def lutImage (lut : List Word) : List Byte → Nat → List Word × Nat
  | [], k => ([], k)
  | v :: vs, k =>
    let c := lutColor lut v k
    let r := lutImage lut vs c.2
    (c.1 :: r.1, r.2)

/-- `emit Present(img)` with `img[py][px] = LutColor(FB[py][px])` (R226), one snapshot of `FB` and `LUT` (R84). -/
def present (s : State) : State :=
  let r := lutImage s.lut s.fb s.draws
  (s.addPresent r.1).setDraws r.2

/-- `POSTRENDER` (R224): present the frame, then `SC <- 0`. `FB` is kept (R230). -/
def execPostrender (s : State) : Host.Outcome State Fault Refusal := .next ((present s).setSc 0)

/-- `CLEAR c` (R227): every pixel becomes `ColorIndex(c)`, written directly and not through `Plot`. R32 says that `CLEAR` too writes
through `Plot`, which under `COMPOSE = key0` would leave the pixels where the index is 0; the model follows R227 against it (log entry 28,
DEDUCED). -/
def execClear (c : BitVec 24) (s : State) : Host.Outcome State Fault Refusal :=
  .next (gated (fun s => s.setFb (List.replicate (s.cfg.swidth * s.cfg.sheight) (colorIndex c s))) s)

/-- `CAMERA x, y` (R228). -/
def execCamera (x y : Word) (s : State) : Host.Outcome State Fault Refusal :=
  .next (gated (fun s => s.setCam (fixOf x) (fixOf y)) s)

end Sys2Proof.Machine
end

