-- ==== Sys2Proof/Machine/Tilemap.lean ====
section
/-! DEFINITION. TileMap cell addressing (R145 to R148), `TMAP` and `TMODE` (43_tilemap.md). -/

namespace Sys2Proof.Machine

/-- `columns(E) = ceil(E.w / E.cell)` (R145). -/
def TmEntry.columns (e : TmEntry) : Nat := (e.w + (e.cell - 1)) / e.cell

/-- `rows(E) = ceil(E.h / E.cell)` (R145). -/
def TmEntry.rows (e : TmEntry) : Nat := (e.h + (e.cell - 1)) / e.cell

/-- The registered tilemap a registry index names: none outside `[0, TM.count)` (R150). -/
def tmAt (k : Int) (s : State) : Option TmEntry := if 0 ≤ k then s.tm[k.toNat]? else none

/-- The rectangle of `GetTile` (R146): clamped to the image; `EMPTY` when nothing is left (R154). -/
def tileView (k : Nat) (e : TmEntry) (i j : Int) (w h : Fix) (cs : Nat) : TexRef :=
  let x1 := i * cs
  let y1 := j * cs
  let x2 := min (e.w : Int) (x1 + fixCeil (w * cs))
  let y2 := min (e.h : Int) (y1 + fixCeil (h * cs))
  if x2 ≤ x1 ∨ y2 ≤ y1 then none
  else some { img := k, vx := x1, vy := y1, vw := (x2 - x1).toNat, vh := (y2 - y1).toNat }

/-- `GetTile(k, i, j, w, h, cs)` (R146): the view, and the state after, in which an unregistered tilemap or an out-of-range
tile has been logged. -/
def getTile (k i j : Int) (w h : Fix) (cs : Nat) (s : State) : TexRef × State :=
  match tmAt k s with
  | none => (none, logNotFound s)
  | some e =>
    if 0 ≤ i ∧ i < TmEntry.columns e ∧ 0 ≤ j ∧ j < TmEntry.rows e then (tileView k.toNat e i j w h cs, s)
    else (none, logNotFound s)

/-- `Crop(k, x, y, w, h)` (R147): no bounds checking. -/
def crop (k : Nat) (x y w h : Int) : TexRef :=
  if w ≤ 0 ∨ h ≤ 0 then none else some { img := k, vx := x, vy := y, vw := w.toNat, vh := h.toNat }

/-- `CropView(V, dx, dy, w, h)` (R147): the same crop relative to a view. -/
def cropView (v : View) (dx dy w h : Int) : TexRef := crop v.img (v.vx + dx) (v.vy + dy) w h

/-- `TMAP name` (R151): the lowest index with that name, or -1, logged. -/
def execTmap (name : Bytes) (s : State) : Host.Outcome State Fault Refusal :=
  .next (match s.tm.findIdx? (fun e => e.name == name) with
    | some k => s.setResult k
    | none => (logNotFound s).setResult (-1))

/-- `TMODE val` (R152). -/
def execTmode (val : Word) (s : State) : Host.Outcome State Fault Refusal := .next (s.setTmode (tileSizeOr (intOf val)))

end Sys2Proof.Machine
end

