-- ==== Sys2Proof/Machine/Grid.lean ====
section
/-! DEFINITION. The scrolling tile grid and its address generator (44_tile_grid.md). All five commands are gated. -/

namespace Sys2Proof.Machine

/-- `GridMode(val)` (R161). -/
def gridMode (val : Int) : Nat := if val < 16 then 1 else if val < 32 then 2 else if val < 64 then 4 else 8

/-- `MMODE val` (R162). -/
def execMmode (val : Word) (s : State) : Host.Outcome State Fault Refusal :=
  .next (gated (fun s => s.setGrid { s.grid with mode := gridMode (intOf val) }) s)

/-- The place of cell `(gx, gy)` in the row-major cell list (R39). -/
def cellIndex (c : Config) (gx gy : Nat) : Nat := gy * c.gw + gx

/-- A grid index along an axis of `size` cells: reduced modulo the window under `wrap`, as given under `drop` (R164). -/
def gridIndex (mode : GridOob) (g : Int) (size : Nat) : Int :=
  match mode with
  | .drop => g
  | .wrap => g % size

/-- `GridPut(gx, gy, V)` (R164). -/
def gridPut (gx gy : Int) (v : TexRef) (s : State) : State :=
  let x := gridIndex s.cfg.gridOob gx s.cfg.gw
  let y := gridIndex s.cfg.gridOob gy s.cfg.gh
  if 0 ≤ x ∧ x < s.cfg.gw ∧ 0 ≤ y ∧ y < s.cfg.gh then
    s.setGrid { s.grid with cells := s.grid.cells.set (cellIndex s.cfg x.toNat y.toNat) v }
  else s

/-- One grid cell of one logical tile of `MFILL`: `u`, `v` count tiles, `du`, `dv` the cells inside one (R165). -/
structure FillStep where
  u : Nat
  v : Nat
  du : Nat
  dv : Nat
  deriving DecidableEq, Repr

/-- The iterations of `MFILL` in the loop order v, u, dv, du (R165, R166). -/
def fillSteps (w h m : Nat) : List FillStep :=
  (rowMajor w h).flatMap fun t => (rowMajor m m).map fun d => { u := t.1, v := t.2, du := d.1, dv := d.2 }

/-- One iteration of `MFILL` (R165). The mode and the scroll do not change during the command. -/
def fillCell (x y id i j : Int) (valid : Bool) (f : FillStep) (s : State) : State :=
  let m : Int := s.grid.mode
  let gx := (x + f.u) * m + f.du - s.grid.sx / gridCell
  let gy := (y + f.v) * m + f.dv - s.grid.sy / gridCell
  let cx := (i + f.u) * m + f.du
  let cy := (j + f.v) * m + f.dv
  gridPut gx gy (if valid then crop id.toNat (cx * gridCell) (cy * gridCell) gridCell gridCell else none) s

/-- `MFILL x, y, id, i, j, w, h` (R165, R173): an unregistered tilemap is logged and fills with `EMPTY`. -/
def fill (x y id i j w h : Int) (s : State) : State :=
  let valid := (tmAt id s).isSome
  let s1 := if valid then s else logNotFound s
  (fillSteps w.toNat h.toNat s.grid.mode).foldl (fun s f => fillCell x y id i j valid f s) s1

/-- `MFILL x, y, id, i, j` (R165) with `w = h = 1` (R96). -/
def execMfill (x y id i j : Word) (s : State) : Host.Outcome State Fault Refusal :=
  .next (gated (fill (intOf x) (intOf y) (intOf id) (intOf i) (intOf j) 1 1) s)

/-- `MFILL x, y, id, i, j, w, h` (R165). -/
def execMfillSpan (x y id i j w h : Word) (s : State) : Host.Outcome State Fault Refusal :=
  .next (gated (fill (intOf x) (intOf y) (intOf id) (intOf i) (intOf j) (intOf w) (intOf h)) s)

/-- `MSCROLL x, y` (R167): no cell changes (R169). -/
def execMscroll (x y : Word) (s : State) : Host.Outcome State Fault Refusal :=
  .next (gated (fun s => s.setGrid { s.grid with sx := intOf x, sy := intOf y }) s)

/-- `MCLEAR` (R168): every cell becomes `EMPTY`; mode and scroll are kept. -/
def execMclear (s : State) : Host.Outcome State Fault Refusal :=
  .next (gated (fun s => s.setGrid { s.grid with cells := List.replicate (s.cfg.gw * s.cfg.gh) none }) s)

/-- `GRID.cell[gy][gx]`. -/
def gridAt (gx gy : Nat) (s : State) : TexRef := s.grid.cells.getD (cellIndex s.cfg gx gy) none

/-- The body of `MDRAW` (R170): every cell at its place less the sub-cell remainder of the scroll (R163). No camera and no
budget (R171). -/
def drawGrid (s : State) : State :=
  (rowMajor s.cfg.gw s.cfg.gh).foldl
    (fun s p => blit (gridAt p.1 p.2 s) ((p.1 : Int) * gridCell - s.grid.sx % gridCell) ((p.2 : Int) * gridCell - s.grid.sy % gridCell) s)
    s

/-- `MDRAW` (R170). -/
def execMdraw (s : State) : Host.Outcome State Fault Refusal := .next (gated drawGrid s)

end Sys2Proof.Machine
end

