-- ==== Sys2Proof/Machine/NineSlice.lean ====
section
/-! DEFINITION. The nine-slice box stretcher (46_nine_slice.md). -/

namespace Sys2Proof.Machine

/-- One elementary draw (R207): slice `(a, b)` cropped to `cw × ch`, its top-left at screen `(dx, dy)`. -/
structure Slice where
  a : Nat
  b : Nat
  cw : Int
  ch : Int
  dx : Int
  dy : Int
  deriving DecidableEq, Repr

/-- `max(0, ceil(W / sw) - 2)`, the tiles of an edge between its corners (R206). -/
def edgeTiles (w : Int) (sw : Nat) : Nat := (ceilDiv w sw - 2).toNat

/-- `cw(k) = min(sw, W - 2·sw - k·sw)` (R206): the last tile is cropped to the interior (R209). -/
def tileSpan (w : Int) (sw k : Nat) : Int := min (sw : Int) (w - 2 * sw - k * sw)

/-- The four corners (R207): top-left, top-right, bottom-left, bottom-right. -/
def corners (x y w h : Int) (sw sh : Nat) : List Slice :=
  [⟨0, 0, sw, sh, x, y⟩, ⟨2, 0, sw, sh, x + w - sw, y⟩, ⟨0, 2, sw, sh, x, y + h - sh⟩, ⟨2, 2, sw, sh, x + w - sw, y + h - sh⟩]

/-- The four edges (R207): top, bottom, left, right. -/
def edges (x y w h : Int) (sw sh : Nat) : List Slice :=
  (List.range (edgeTiles w sw)).map (fun k => ⟨1, 0, tileSpan w sw k, sh, x + sw + k * sw, y⟩)
    ++ (List.range (edgeTiles w sw)).map (fun k => ⟨1, 2, tileSpan w sw k, sh, x + sw + k * sw, y + h - sh⟩)
    ++ (List.range (edgeTiles h sh)).map (fun k => ⟨0, 1, sw, tileSpan h sh k, x, y + sh + k * sh⟩)
    ++ (List.range (edgeTiles h sh)).map (fun k => ⟨2, 1, sw, tileSpan h sh k, x + w - sw, y + sh + k * sh⟩)

/-- The centre, row by row (R207). -/
def centre (x y w h : Int) (sw sh : Nat) : List Slice :=
  (rowMajor (edgeTiles w sw) (edgeTiles h sh)).map fun p =>
    ⟨1, 1, tileSpan w sw p.1, tileSpan h sh p.2, x + sw + p.1 * sw, y + sh + p.2 * sh⟩

/-- The elementary draw list `L(X, Y, W, H, sw, sh)` (R207). -/
def sliceList (x y w h : Int) (sw sh : Nat) : List Slice := corners x y w h sw sh ++ edges x y w h sw sh ++ centre x y w h sw sh

/-- One elementary draw of view `v` (R208). -/
def drawSlice (v : View) (sw sh : Nat) (e : Slice) (s : State) : State :=
  blit (cropView v (e.a * sw) (e.b * sh) e.cw e.ch) e.dx e.dy s

/-- A source with no slices (R215): no pixel, and a free count in `[0, B]` (log entry 8). -/
def degenerateBox (budget : Nat) (s : State) : Nat × State := (Config.freeCount s.draws % (budget + 1), s.advance)

/-- `NineSlice(V, X, Y, W, H, B)` (R211): the first `min(B, |L|)` elements of the list, and that count. The slice size is a
third of the view, rounded down (R205). -/
def nineSlice (t : TexRef) (x y w h : Int) (budget : Nat) (s : State) : Nat × State :=
  match t with
  | none => degenerateBox budget s
  | some v =>
    let sw := v.vw / 3
    let sh := v.vh / 3
    if sw = 0 ∨ sh = 0 then degenerateBox budget s
    else
      let l := (sliceList x y w h sw sh).take budget
      (l.length, l.foldl (fun s e => drawSlice v sw sh e s) s)

/-- The body of `SBOX` (R212): the budget is what the frame has left. Camera and attributes do not matter (R216). -/
def drawBox (x y w h : Int) (s : State) : State :=
  let r := nineSlice s.ns.tex x y w h (s.cfg.numSprites - s.sc) s
  r.2.setSc (r.2.sc + r.1)

/-- `SBOX x, y, w, h` (R212). -/
def execSbox (x y w h : Word) (s : State) : Host.Outcome State Fault Refusal :=
  .next (gated (drawBox (intOf x) (intOf y) (intOf w) (intOf h)) s)

end Sys2Proof.Machine
end

