-- ==== Sys2Proof/Machine/Palette.lean ====
section
/-! DEFINITION. The palette commands (41_palette.md). None is gated. -/

namespace Sys2Proof.Machine

/-- `Result(PalPush(c))`, the body `PALPUSH` and `PALPUSHRGB` share (R111, R113). -/
def pushResult (c : Word) (s : State) : State :=
  let r := palPush c s
  r.2.setResult r.1

/-- `PALPUSH c` (R111). -/
def execPalpush (c : Word) (s : State) : Host.Outcome State Fault Refusal := .next (pushResult c s)

/-- `PALPUSHRGB c` (R113): the colour pushed has alpha 0xFF. -/
def execPalpushrgb (c : BitVec 24) (s : State) : Host.Outcome State Fault Refusal := .next (pushResult (rgbaOf c) s)

/-- `PALINDEX c` (R115): the index, or -1 for an unknown colour. -/
def execPalindex (c : Word) (s : State) : Host.Outcome State Fault Refusal :=
  .next (s.setResult (match palIndex c s with | some k => k | none => -1))

/-- `PALCOLOR i` (R116): the entry, or 0 outside `[0, PAL.len)`. -/
def execPalcolor (i : Word) (s : State) : Host.Outcome State Fault Refusal :=
  .next (s.setResult (if 0 ≤ intOf i then (s.pal.getD (intOf i).toNat 0).toNat else 0))

/-- `PALUPDATE` (R117): `LUT` becomes a copy of `PAL`. -/
def execPalupdate (s : State) : Host.Outcome State Fault Refusal := .next (s.setLut s.pal)

end Sys2Proof.Machine
end

