-- ==== Sys2Proof/Machine/Sprite.lean ====
section
/-! DEFINITION. The next-sprite object, its setters and the sprite rasteriser (45_sprite.md). All commands are gated. -/

namespace Sys2Proof.Machine

/-- `effH(NS)` (R37): `NS.scaleH · (NS.flipH ? -1 : 1)`. -/
def effH (n : NextSprite) : Fix := if n.flipH then -n.scaleH else n.scaleH

/-- `effV(NS)` (R37). -/
def effV (n : NextSprite) : Fix := if n.flipV then -n.scaleV else n.scaleV

/-! ## Setters -/

/-- `NS.tex <- GetTile(id, i, j, w, h, TMODE)`, the body of both forms of `STILE` (R185). -/
def setTile (id i j : Int) (w h : Fix) (s : State) : State :=
  let r := getTile id i j w h s.tmode s
  r.2.setNs { r.2.ns with tex := r.1 }

/-- `STILE id, i, j` (R185) with `w = h = 1.0` (R96). -/
def execStile (id i j : Word) (s : State) : Host.Outcome State Fault Refusal :=
  .next (gated (setTile (intOf id) (intOf i) (intOf j) fixOne fixOne) s)

/-- `STILE id, i, j, w, h` (R185). -/
def execStileSpan (id i j w h : Word) (s : State) : Host.Outcome State Fault Refusal :=
  .next (gated (setTile (intOf id) (intOf i) (intOf j) (fixOf w) (fixOf h)) s)

/-- `SORIGIN x, y` (R186). -/
def execSorigin (x y : Word) (s : State) : Host.Outcome State Fault Refusal :=
  .next (gated (fun s => s.setNs { s.ns with ox := fixOf x, oy := fixOf y }) s)

/-- `SFLIP h, v` (R187). -/
def execSflip (h v : Bool) (s : State) : Host.Outcome State Fault Refusal :=
  .next (gated (fun s => s.setNs { s.ns with flipH := h, flipV := v }) s)

/-- `SSCALE h, v` (R188): values of 0 and below are stored as given (R197). -/
def execSscale (h v : Word) (s : State) : Host.Outcome State Fault Refusal :=
  .next (gated (fun s => s.setNs { s.ns with scaleH := fixOf h, scaleV := fixOf v }) s)

/-- `SROT deg` (R189): the angle is reduced only when drawn. -/
def execSrot (deg : Word) (s : State) : Host.Outcome State Fault Refusal :=
  .next (gated (fun s => s.setNs { s.ns with rot := fixOf deg }) s)

/-- `SCLEAR` (R190). -/
def execSclear (s : State) : Host.Outcome State Fault Refusal := .next (gated (fun s => s.setNs .default) s)

/-! ## The rasteriser (R182) -/

/-- Where and how a sprite is drawn: origin at screen point `(qx, qy)`, origin `(ox, oy)` in texels, rotation, effective
scale. -/
structure Placement where
  qx : Fix
  qy : Fix
  ox : Fix
  oy : Fix
  rot : Fix
  ex : Fix
  ey : Fix
  deriving DecidableEq, Repr

/-- `d` degrees as a `Fix`. -/
def degrees (d : Int) : Fix := d * fixOne

/-- `θ mod 360`, in `[0, 360)` (R182). -/
def turn (rot : Fix) : Fix := rot % degrees 360

/-- The offset turned back by a multiple of 90 degrees (R182); `none` for any other angle. -/
def unrotate (t dx dy : Fix) : Option (Fix × Fix) :=
  if t = 0 then some (dx, dy)
  else if t = degrees 90 then some (dy, -dx)
  else if t = degrees 180 then some (-dx, -dy)
  else if t = degrees 270 then some (-dy, dx)
  else none

/-- `floor(o + r/e)` for `e ≠ 0` (R182), computed on the numerators: `o/65536 + r/e = (o·e + 65536·r) / (65536·e)`. -/
def texelCoord (o r e : Fix) : Int := (o * e + fixOne * r).fdiv (fixOne * e)

/-- The half-open test and the texel index along one axis (R182). -/
def axisTexel (o r e : Fix) (size : Nat) : Option Nat :=
  let l := texelCoord o r e
  if 0 ≤ l ∧ l < size then some l.toNat else none

/-- `RotSample` (R183) with its answer reduced into the view, so that it gives a texel of the view or `none`. -/
def rotTexel (p : Placement) (v : View) (px py : Nat) : Option (Nat × Nat) :=
  if v.vw = 0 ∨ v.vh = 0 then none
  else
    (Config.rotSample
      { t := turn p.rot, ex := p.ex, ey := p.ey, ox := p.ox, oy := p.oy, qx := p.qx, qy := p.qy, vw := v.vw, vh := v.vh, px := px,
        py := py }).map fun t => (t.1 % v.vw, t.2 % v.vh)

/-- The texel that pixel `(px, py)` of the screen reads (R182): inverse mapping at the pixel's centre. -/
def spriteTexel (p : Placement) (v : View) (px py : Nat) : Option (Nat × Nat) :=
  let dx : Fix := px * fixOne + 32768 - p.qx
  let dy : Fix := py * fixOne + 32768 - p.qy
  match unrotate (turn p.rot) dx dy with
  | none => rotTexel p v px py
  | some r =>
    match axisTexel p.ox r.1 p.ex v.vw, axisTexel p.oy r.2 p.ey v.vh with
    | some tx, some ty => some (tx, ty)
    | _, _ => none

/-- One screen pixel of `SpriteRaster` (R182). -/
def spritePixel (p : Placement) (v : View) (px py : Nat) (s : State) : State :=
  match spriteTexel p v px py with
  | none => s
  | some t => plotTexel v px py t.1 t.2 s

/-- `SpriteRaster(V, Qx, Qy, ox, oy, θ, ex, ey)` (R182): every pixel of the screen, row-major; nothing for an empty texture or
a zero scale (R197). -/
def spriteRaster (t : TexRef) (p : Placement) (s : State) : State :=
  match t with
  | none => s
  | some v =>
    if p.ex = 0 ∨ p.ey = 0 then s
    else (rowMajor s.cfg.swidth s.cfg.sheight).foldl (fun s px => spritePixel p v px.1 px.2 s) s

/-- Where the next sprite is drawn when committed at world position `(x, y)` (R193). -/
def placement (x y : Fix) (s : State) : Placement where
  qx := (screenPos x y s).1
  qy := (screenPos x y s).2
  ox := s.ns.ox
  oy := s.ns.oy
  rot := s.ns.rot
  ex := effH s.ns
  ey := effV s.ns

/-- The body of `SDRAW` (R193): under budget, draw and count; over it, nothing changes. -/
def drawSprite (x y : Fix) (s : State) : State :=
  if s.sc < s.cfg.numSprites then
    let t := spriteRaster s.ns.tex (placement x y s) s
    t.setSc (t.sc + 1)
  else s

/-- `SDRAW x, y` (R193). -/
def execSdraw (x y : Word) (s : State) : Host.Outcome State Fault Refusal := .next (gated (drawSprite (fixOf x) (fixOf y)) s)

end Sys2Proof.Machine
end

