-- ==== Sys2Proof/Machine/Text.lean ====
section
/-! DEFINITION. The next-text object and the text commands (48_text.md). `FNT` is not gated. -/

namespace Sys2Proof.Machine

/-- `FNT name` (R240): select the lowest index with that name, or deselect, log and return -1. -/
def execFnt (name : Bytes) (s : State) : Host.Outcome State Fault Refusal :=
  .next (match s.font.findIdx? (fun e => e.name == name) with
    | some k => (s.setNt { s.nt with font := some k }).setResult k
    | none => ((logNotFound s).setNt { s.nt with font := none }).setResult (-1))

/-- `FALIGN x, y` (R241). -/
def execFalign (x y : Word) (s : State) : Host.Outcome State Fault Refusal :=
  .next (gated (fun s => s.setNt { s.nt with alignX := fixOf x, alignY := fixOf y }) s)

/-- `FCOLOR c` (R242): resolved now, not when the text is drawn. -/
def execFcolor (c : BitVec 24) (s : State) : Host.Outcome State Fault Refusal :=
  .next (gated (fun s => s.setNt { s.nt with color := colorIndex c s }) s)

/-- `FCLEAR` (R243). -/
def execFclear (s : State) : Host.Outcome State Fault Refusal := .next (gated (fun s => s.setNt .default) s)

/-- The font that `NT` selects: none for `NONE` (R249). An index past the registry, which no run makes, selects none (log
entry 21). -/
def selectedFont (s : State) : Option FontEntry := s.nt.font.bind fun k => s.font[k]?

/-- Where the top-left pixel of a text goes along one axis (R245): `floor(Q) - floor(size · align)`. -/
def textStart (q : Fix) (size : Nat) (align : Fix) : Int := fixFloor q - fixFloor (size * align)

/-- The pixels of a raster inside its size, row-major (R245). -/
def coveredPixels (r : Raster) : List (Nat × Nat) := (rowMajor r.tw r.th).filter fun p => p ∈ r.cov

/-- The pixel loop of `FDRAW` (R245) for a raster: every covered pixel is plotted in `NT.color`. -/
def drawRaster (r : Raster) (x y : Fix) (s : State) : State :=
  let q := screenPos x y s
  (coveredPixels r).foldl
    (fun s p => plot (textStart q.1 r.tw s.nt.alignX + p.1) (textStart q.2 r.th s.nt.alignY + p.2) (some s.nt.color) s)
    s

/-- The body of `FDRAW` (R245): `TextLayout` (R244) asks the platform's `FontRaster`. No budget (R248). -/
def drawText (x y : Fix) (text : Bytes) (s : State) : State :=
  match selectedFont s with
  | none => s
  | some f => drawRaster (Config.fontRaster f.fid text) x y s

/-- `FDRAW x, y, text` (R245). -/
def execFdraw (x y : Word) (text : Bytes) (s : State) : Host.Outcome State Fault Refusal :=
  .next (gated (drawText (fixOf x) (fixOf y) text) s)

end Sys2Proof.Machine
end

