-- ==== Sys2Proof/Machine/Dispatch.lean ====
section
/-! DEFINITION. One arm per command: its meaning. -/

namespace Sys2Proof.Machine

def exec (i : Instr) (s : State) : Host.Outcome State Fault Refusal :=
  match i with
  | .nop => Sys2Proof.Machine.execNop s
  | .drawen b => Sys2Proof.Machine.execDrawen b s
  | .prerender => Sys2Proof.Machine.execPrerender s
  | .postrender => Sys2Proof.Machine.execPostrender s
  | .clear c => Sys2Proof.Machine.execClear c s
  | .camera x y => Sys2Proof.Machine.execCamera x y s
  | .stile id col row => Sys2Proof.Machine.execStile id col row s
  | .stileSpan id col row w h => Sys2Proof.Machine.execStileSpan id col row w h s
  | .sorigin x y => Sys2Proof.Machine.execSorigin x y s
  | .sflip h v => Sys2Proof.Machine.execSflip h v s
  | .sscale h v => Sys2Proof.Machine.execSscale h v s
  | .srot deg => Sys2Proof.Machine.execSrot deg s
  | .sclear => Sys2Proof.Machine.execSclear s
  | .sdraw x y => Sys2Proof.Machine.execSdraw x y s
  | .sbox x y w h => Sys2Proof.Machine.execSbox x y w h s
  | .fnt name => Sys2Proof.Machine.execFnt name s
  | .falign x y => Sys2Proof.Machine.execFalign x y s
  | .fcolor c => Sys2Proof.Machine.execFcolor c s
  | .fclear => Sys2Proof.Machine.execFclear s
  | .fdraw x y text => Sys2Proof.Machine.execFdraw x y text s
  | .tmap name => Sys2Proof.Machine.execTmap name s
  | .tmode val => Sys2Proof.Machine.execTmode val s
  | .mmode val => Sys2Proof.Machine.execMmode val s
  | .mfill x y id col row => Sys2Proof.Machine.execMfill x y id col row s
  | .mfillSpan x y id col row w h => Sys2Proof.Machine.execMfillSpan x y id col row w h s
  | .mscroll x y => Sys2Proof.Machine.execMscroll x y s
  | .mclear => Sys2Proof.Machine.execMclear s
  | .mdraw => Sys2Proof.Machine.execMdraw s
  | .palpush c => Sys2Proof.Machine.execPalpush c s
  | .palpushrgb c => Sys2Proof.Machine.execPalpushrgb c s
  | .palindex c => Sys2Proof.Machine.execPalindex c s
  | .palcolor k => Sys2Proof.Machine.execPalcolor k s
  | .palupdate => Sys2Proof.Machine.execPalupdate s
  | .loadtm base w h cell name => Sys2Proof.Machine.execLoadtm base w h cell name s
  | .loadfnt fid name => Sys2Proof.Machine.execLoadfnt fid name s

end Sys2Proof.Machine
end

