-- ==== Sys2Proof/Machine/Step.lean ====
section
/-! DEFINITION. One step of the command processor (R17, R40, R87): execute the command whose words have all arrived, or consume
one word, or wait. -/

namespace Sys2Proof.Machine

/-- One step. A whole command in assembly executes, or is discarded if illegal (R99); otherwise the processor consumes the
oldest FIFO word; with no word to consume it waits, and nothing changes (R106, R274; log entry 12). -/
def step (s : State) : Host.Outcome State Fault Refusal :=
  if commandReady s then
    match decode s.asm with
    | .ok i => exec i s.retire
    | .error _ => .next (discardIllegal s.retire)
  else .next (consumeWord s)

/-- `s` with the instruction `w`, numbered as spec/opcode_table.json numbers it, in the assembly state, where the next step
takes it from: its words have all arrived (log entry 18). -/
def State.withFetchWord (s : State) (nbits w : Nat) : State := { s with asm := tableWords nbits w }

end Sys2Proof.Machine
end

