-- ==== Sys2Proof/Machine/Bus.lean ====
section
/-! DEFINITION. What the host can do to the block (R47): the register port (R41 to R46), the texture-memory port (R62) and the
reset input (R280). Each access is one atomic event between two steps of the command processor (R76, log entry 13). -/

namespace Sys2Proof.Machine

/-- How a host access ends. -/
inductive Access where
  /-- it completes with the value read (0 for a write) -/
  | done (v : Word) (s : State)
  /-- it waits: for FIFO room (R40) or for every earlier command to complete (R46) -/
  | wait
  /-- it has no meaning (R42, R62) -/
  | refused (r : Refusal)
  deriving DecidableEq, Repr

/-- The content of the register at a word-aligned offset of the window (R41); reserved offsets read 0. -/
def regValue (off : Nat) (s : State) : Word :=
  match off with
  | 0x04 => s.result
  | 0x08 => statusWord s
  | 0x0C => BitVec.ofNat 32 s.sc
  | 0x10 => BitVec.ofNat 32 s.pal.length
  | 0x14 => BitVec.ofNat 32 s.tm.length
  | 0x18 => BitVec.ofNat 32 s.font.length
  | 0x1C => s.aux
  | 0x20 => BitVec.ofNat 32 s.cfg.swidth
  | 0x24 => BitVec.ofNat 32 s.cfg.sheight
  | 0x28 => BitVec.ofNat 32 s.cfg.numSprites
  | 0x2C => BitVec.ofNat 32 s.cfg.tnum
  | 0x30 => BitVec.ofNat 32 s.cfg.palCap
  | 0x34 => 1
  | _ => 0

/-- Is the access an aligned 32-bit one inside the window (R42)? -/
def regAccessOk (off size : Nat) : Bool := off % 4 == 0 && size == 4 && decide (off < 256)

/-- A host read of `size` bytes at offset `off` of the register window. `CMD` reads 0 at once (R43); any other register waits
until every earlier command has completed (R46). -/
def regRead (off size : Nat) (s : State) : Access :=
  if !regAccessOk off size then .refused .registerAccess
  else if off = 0 then .done 0 s
  else if !s.quiet then .wait
  else .done (regValue off s) s

/-- A host write of `w` at offset `off`. `CMD` appends to the FIFO when there is room (R40, R43); `STATUS` clears sticky bits
(R44); every other register ignores it (R42). All but `CMD` wait (R46). -/
def regWrite (off size : Nat) (w : Word) (s : State) : Access :=
  if !regAccessOk off size then .refused .registerAccess
  else if off = 0 then
    if s.fifo.length < s.cfg.fifoDepth then .done 0 { s with fifo := s.fifo ++ [w] } else .wait
  else if !s.quiet then .wait
  else if off = 0x08 then .done 0 (statusWrite w s)
  else .done 0 s

/-- A host read at a bus address: the block answers the 256 bytes from `PPU_BASE` (R41). -/
def busRead (addr size : Nat) (s : State) : Access :=
  if s.cfg.ppuBase ≤ addr ∧ addr < s.cfg.ppuBase + 256 then regRead (addr - s.cfg.ppuBase) size s else .refused .notThisBlock

/-- A host write at a bus address (R41). -/
def busWrite (addr size : Nat) (w : Word) (s : State) : Access :=
  if s.cfg.ppuBase ≤ addr ∧ addr < s.cfg.ppuBase + 256 then regWrite (addr - s.cfg.ppuBase) size w s else .refused .notThisBlock

/-- Is the texture-memory access an aligned one of 1, 2 or 4 bytes inside `[0, TEXMEM_BYTES)` (R62)? -/
def texAccessOk (addr size : Nat) (s : State) : Bool :=
  (size == 1 || size == 2 || size == 4) && addr % size == 0 && decide (addr + size ≤ s.cfg.texmemBytes)

/-- The little-endian value of `size` bytes from `addr` (R62). -/
def texValue (addr size : Nat) (s : State) : Nat :=
  (List.range size).foldr (fun k acc => (s.texByte (addr + k)).toNat + 256 * acc) 0

/-- A host read at the texture-memory port (R62): the bytes currently stored, no side effect (R67). -/
def texPortRead (addr size : Nat) (s : State) : Access :=
  if texAccessOk addr size s then .done (BitVec.ofNat 32 (texValue addr size s)) s else .refused .texmemAccess

/-- One byte of a host write. When a command is pending the write races with it, and the model remembers both bytes
(R79(c), log entry 11). -/
def hostStore (a : Nat) (v : Byte) (s : State) : State :=
  let s1 := s.storeByte a v
  if s.quiet then s1
  else { s1 with raced := s1.raced ++ [{ addr := a, old := s.texByte a, new := v, limit := s.pos + s.fifo.length }] }

/-- A host write of `size` bytes at the texture-memory port, little-endian (R62). -/
def texPortWrite (addr size : Nat) (w : Word) (s : State) : Access :=
  if texAccessOk addr size s then
    .done 0 ((List.range size).foldl (fun s k => hostStore (addr + k) (BitVec.ofNat 8 (bits w (8 * k + 7) (8 * k))) s) s)
  else .refused .texmemAccess

/-- The reset input (R280): the whole block, at any time; `FB` and `TEXMEM` get fresh unspecified contents (R281, log entry
22), and the free values used so far stay used. -/
def State.resetInput (s : State) : State := (State.resetWith s.cfg (s.resets + 1)).setDraws s.draws

end Sys2Proof.Machine
end

