-- ==== Sys2Proof/Safety.lean ====
section
/-! DEFINITION. What the claims about the machine are stated in: the invariants of the state, which commands are gated, and what a
picture-only change is. -/

namespace Sys2Proof.Machine

/-! ## Classes of commands -/

/-- The gated commands, by R101's list. -/
def isGated (i : Instr) : Bool :=
  match i with
  | .nop => false
  | .drawen _ => false
  | .prerender => false
  | .postrender => false
  | .clear _ => true
  | .camera _ _ => true
  | .stile _ _ _ => true
  | .stileSpan _ _ _ _ _ => true
  | .sorigin _ _ => true
  | .sflip _ _ => true
  | .sscale _ _ => true
  | .srot _ => true
  | .sclear => true
  | .sdraw _ _ => true
  | .sbox _ _ _ _ => true
  | .fnt _ => false
  | .falign _ _ => true
  | .fcolor _ => true
  | .fclear => true
  | .fdraw _ _ _ => true
  | .tmap _ => false
  | .tmode _ => false
  | .mmode _ => true
  | .mfill _ _ _ _ _ => true
  | .mfillSpan _ _ _ _ _ _ _ => true
  | .mscroll _ _ => true
  | .mclear => true
  | .mdraw => true
  | .palpush _ => false
  | .palpushrgb _ => false
  | .palindex _ => false
  | .palcolor _ => false
  | .palupdate => false
  | .loadtm _ _ _ _ _ => false
  | .loadfnt _ _ => false

/-! ## Changes -/

/-- `t` is `s` but for the framebuffer's contents and the count of free values used. -/
def PictureOnly (s t : State) : Prop := ∃ fb k, t = (s.setFb fb).setDraws k ∧ fb.length = s.fb.length

/-- Pixel `(px, py)` of the framebuffer. -/
def pixelAt (s : State) (px py : Nat) : Byte := s.fb.getD (fbIndex s.cfg px py) 0

/-! ## Invariants of the state -/

/-- A signed 32-bit value: what an `INT` operand can give, and the numerator of a Q16.16 one (R11). -/
def isS32 (v : Int) : Prop := -2 ^ 31 ≤ v ∧ v < 2 ^ 31

/-- The palette (R30) and the lookup table, a snapshot of an earlier palette (R31). -/
def PaletteOk (s : State) : Prop :=
  s.pal.head? = some 0 ∧ s.pal.Nodup ∧ s.pal.length ≤ s.cfg.palCap ∧ s.lut.head? = some 0 ∧ s.lut <+: s.pal

/-- The draw counter (R24). -/
def BudgetOk (s : State) : Prop := s.sc ≤ s.cfg.numSprites

/-- The framebuffer holds one index a pixel (R32), and every image presented one colour a pixel (R226). -/
def FramesOk (s : State) : Prop :=
  s.fb.length = s.cfg.swidth * s.cfg.sheight ∧ ∀ img ∈ s.presents, img.length = s.cfg.swidth * s.cfg.sheight

/-- Texture memory has its canonical form and lists only addresses that exist (R60). -/
def TexmemOk (s : State) : Prop := Memory.wf s.texmem ∧ ∀ c ∈ s.texmem, c.1 < s.cfg.texmemBytes

/-- An image lies in texture memory at a 4-aligned base, and its cell size is legal (R34, R133). -/
def TmEntry.ok (c : Config) (e : TmEntry) : Prop :=
  1 ≤ e.w ∧ 1 ≤ e.h ∧ e.base % 4 = 0 ∧ e.base + 4 * e.w * e.h ≤ c.texmemBytes ∧ (e.cell : Int) ∈ tileSizes ∧ e.name.length ≤ 1016

/-- The registries (R34, R35). -/
def RegistriesOk (s : State) : Prop :=
  s.tm.length ≤ s.cfg.tmMax ∧ s.font.length ≤ s.cfg.fontMax ∧ ∀ e ∈ s.tm, TmEntry.ok s.cfg e

/-- A view lies inside the image it names (R146). -/
def View.inside (s : State) (v : View) : Prop :=
  ∃ e, s.tm[v.img]? = some e ∧ 0 ≤ v.vx ∧ 0 ≤ v.vy ∧ 1 ≤ v.vw ∧ 1 ≤ v.vh ∧ v.vx + v.vw ≤ e.w ∧ v.vy + v.vh ≤ e.h

/-- The next sprite's texture lies inside its image, the next text's font is registered, and the attributes are in range
(R36, R38). -/
def AttributesOk (s : State) : Prop :=
  (∀ v, s.ns.tex = some v → View.inside s v) ∧ (∀ k, s.nt.font = some k → k < s.font.length) ∧
    isS32 s.ns.ox ∧ isS32 s.ns.oy ∧ isS32 s.ns.rot ∧ isS32 s.ns.scaleH ∧ isS32 s.ns.scaleV ∧
    isS32 s.nt.alignX ∧ isS32 s.nt.alignY

/-- The grid (R39): its size, its mode, its scroll, and cells that are `G`-pixel crops of registered images (R165). -/
def GridOk (s : State) : Prop :=
  s.grid.cells.length = s.cfg.gw * s.cfg.gh ∧ s.grid.mode ∈ [1, 2, 4, 8] ∧ isS32 s.grid.sx ∧ isS32 s.grid.sy ∧
    ∀ v, some v ∈ s.grid.cells → v.vw = gridCell ∧ v.vh = gridCell ∧ v.img < s.tm.length

/-- `TMODE` is one of the six tile resolutions (R26). -/
def TmodeOk (s : State) : Prop := (s.tmode : Int) ∈ tileSizes

/-- The FIFO holds at most `FIFO_DEPTH` words, and the assembly state no more than one command (R40). -/
def StreamOk (s : State) : Prop :=
  s.fifo.length ≤ s.cfg.fifoDepth ∧ ∀ hdr args, s.asm = hdr :: args → args.length ≤ hdrNw hdr

/-- Every invariant. -/
def State.Inv (s : State) : Prop :=
  s.cfg.wf = true ∧ PaletteOk s ∧ BudgetOk s ∧ FramesOk s ∧ TexmemOk s ∧ RegistriesOk s ∧ AttributesOk s ∧ GridOk s ∧ TmodeOk s ∧
    StreamOk s

end Sys2Proof.Machine
end

