-- ==== Sys2Proof/Certificates/Slice0/Obligations.lean ====
section
/-! DEFINITION. The statements about the machine, by the spec's numbered rules. The formulas of the rules are written again here, in
exact rationals where the rules use them (R10), so that a statement does not lean on the meaning it is about. "The count of free values
used" is the model's own field `draws` (log entry 23, DESIGN CHOICE). -/

namespace Sys2Proof.Spec

open Sys2Proof.Machine

/-! ## The rules' formulas -/

/-- R11: the rational a fixed-point number stands for. -/
def rat (q : Fix) : ℚ := (q : ℚ) / 65536

/-- R72: what an index leaves in a pixel that held `old`. -/
def plotted (c : Config) (old new : Byte) : Byte := if c.compose = .key0 ∧ new = 0 then old else new

/-- R68: the index of texel `(tx, ty)` of a view, from the blue byte; `none` outside the image. -/
def texelIndex (s : State) (v : View) (tx ty : Int) : Option Byte :=
  match s.tm[v.img]? with
  | none => none
  | some e =>
    if 0 ≤ v.vx + tx ∧ v.vx + tx < e.w ∧ 0 ≤ v.vy + ty ∧ v.vy + ty < e.h then
      some (s.texByte (e.base + 4 * ((v.vy + ty).toNat * e.w + (v.vx + tx).toNat) + 2))
    else none

/-- R72 after R68: what a texel leaves in a pixel that held `old`, where the texel is inside its image. -/
def painted (s : State) (v : View) (tx ty : Int) (old : Byte) : Byte :=
  match texelIndex s v tx ty with
  | none => old
  | some b => plotted s.cfg old b

/-- R181. -/
def screenX (s : State) (x : Fix) : ℚ := rat x - (rat s.camX - (s.cfg.swidth : ℚ) / 2)
/-- R181. -/
def screenY (s : State) (y : Fix) : ℚ := rat y - (rat s.camY - (s.cfg.sheight : ℚ) / 2)

/-- R182: the offset from the origin turned back, for the multiples of 90 degrees. -/
def turned (θ dx dy : ℚ) : Option (ℚ × ℚ) :=
  let t := θ - 360 * ⌊θ / 360⌋
  if t = 0 then some (dx, dy)
  else if t = 90 then some (dy, -dx)
  else if t = 180 then some (-dx, -dy)
  else if t = 270 then some (-dy, dx)
  else none

/-- R37: the effective scales. -/
def effScaleH (n : NextSprite) : ℚ := rat n.scaleH * (if n.flipH then -1 else 1)
/-- R37. -/
def effScaleV (n : NextSprite) : ℚ := rat n.scaleV * (if n.flipV then -1 else 1)

/-- R182: the texel that pixel `(px, py)` reads when the next sprite is drawn at world position `(x, y)` with texture `v` at a
multiple of 90 degrees. -/
def spriteSource (s : State) (v : View) (x y : Fix) (px py : Nat) : Option (Int × Int) :=
  match turned (rat s.ns.rot) ((px : ℚ) + 1 / 2 - screenX s x) ((py : ℚ) + 1 / 2 - screenY s y) with
  | none => none
  | some (rx, ry) =>
    let lx := rat s.ns.ox + rx / effScaleH s.ns
    let ly := rat s.ns.oy + ry / effScaleV s.ns
    if 0 ≤ lx ∧ lx < v.vw ∧ 0 ≤ ly ∧ ly < v.vh then some (⌊lx⌋, ⌊ly⌋) else none

/-- R206: `max(0, ceil(W / sw) - 2)`. -/
def tilesBetween (w : Int) (sw : Nat) : Nat := (⌈(w : ℚ) / (sw : ℚ)⌉ - 2).toNat

/-- R207: the length of the elementary draw list. -/
def listLength (w h : Int) (sw sh : Nat) : Nat :=
  4 + 2 * tilesBetween w sw + 2 * tilesBetween h sh + tilesBetween w sw * tilesBetween h sh

/-- R206: `cw(k)` (or `ch(k)`), what is left of tile `k` inside the interior. -/
def tileWidth (w : Int) (sw k : Nat) : Int := min (sw : Int) (w - 2 * sw - k * sw)

/-- R207: the elementary draw list `L(X, Y, W, H, sw, sh)`, in its order: corners, top, bottom, left, right, centre row by row. -/
def drawList (x y w h : Int) (sw sh : Nat) : List Slice :=
  [ { a := 0, b := 0, cw := sw, ch := sh, dx := x, dy := y },
    { a := 2, b := 0, cw := sw, ch := sh, dx := x + w - sw, dy := y },
    { a := 0, b := 2, cw := sw, ch := sh, dx := x, dy := y + h - sh },
    { a := 2, b := 2, cw := sw, ch := sh, dx := x + w - sw, dy := y + h - sh } ]
  ++ (List.range (tilesBetween w sw)).map (fun k =>
    { a := 1, b := 0, cw := tileWidth w sw k, ch := sh, dx := x + sw + k * sw, dy := y })
  ++ (List.range (tilesBetween w sw)).map (fun k =>
    { a := 1, b := 2, cw := tileWidth w sw k, ch := sh, dx := x + sw + k * sw, dy := y + h - sh })
  ++ (List.range (tilesBetween h sh)).map (fun k =>
    { a := 0, b := 1, cw := sw, ch := tileWidth h sh k, dx := x, dy := y + sh + k * sh })
  ++ (List.range (tilesBetween h sh)).map (fun k =>
    { a := 2, b := 1, cw := sw, ch := tileWidth h sh k, dx := x + w - sw, dy := y + sh + k * sh })
  ++ (List.range (tilesBetween h sh)).flatMap (fun r => (List.range (tilesBetween w sw)).map fun c =>
    { a := 1, b := 1, cw := tileWidth w sw c, ch := tileWidth h sh r, dx := x + sw + c * sw, dy := y + sh + r * sh })

/-- R205 to R209: the texel column (or row) of the source that column `d` of a box of width `w` shows, when the corners do not
overlap. -/
def boxSource (w : Int) (sw : Nat) (d : Int) : Int :=
  if d < sw then d else if d < w - sw then sw + (d - sw) % sw else 2 * sw + (d - (w - sw))

/-- R34, R133, R152. -/
def legalTile (v : Int) : Nat := if v = 8 ∨ v = 16 ∨ v = 24 ∨ v = 32 ∨ v = 64 ∨ v = 128 then v.toNat else 8

/-- R132: the colour of pixel `(x, y)` of an RGBA image of width `w` at `base`. -/
def pixelColor (s : State) (base w x y : Nat) : Word :=
  let a := base + 4 * (y * w + x)
  s.texByte a ++ s.texByte (a + 1) ++ s.texByte (a + 2) ++ s.texByte (a + 3)

/-- R111: the palette after the push of a colour: appended when it is new and there is room. -/
def pushColor (cap : Nat) (pal : List Word) (c : Word) : List Word := if c ∈ pal ∨ cap ≤ pal.length then pal else pal ++ [c]

/-- R131: the colours of the image in the palettizer's order: x in the outer loop, y in the inner one. -/
def imageColors (s : State) (base w h : Nat) : List Word :=
  (List.range w).flatMap fun x => (List.range h).map fun y => pixelColor s base w x y

/-- R281: every value that it gives, for parameters `c`. -/
def IsResetState (c : Config) (s : State) : Prop :=
  s.cfg = c ∧ s.drawEn = false ∧ s.sc = 0 ∧ rat s.camX = (c.swidth : ℚ) / 2 ∧ rat s.camY = (c.sheight : ℚ) / 2 ∧ s.tmode = 8 ∧
    s.result = 0 ∧ s.aux = 0 ∧ statusWord s = 0 ∧ s.errIll = false ∧ s.logNf = false ∧ s.palOvf = false ∧ s.pal = [0] ∧ s.lut = [0] ∧
    s.fb.length = c.swidth * c.sheight ∧ s.tm = [] ∧ s.font = [] ∧
    s.ns.tex = none ∧ s.ns.ox = 0 ∧ s.ns.oy = 0 ∧ s.ns.rot = 0 ∧ s.ns.flipH = false ∧ s.ns.flipV = false ∧ rat s.ns.scaleH = 1 ∧
    rat s.ns.scaleV = 1 ∧ s.nt.font = none ∧ s.nt.alignX = 0 ∧ s.nt.alignY = 0 ∧ s.nt.color = 0 ∧
    s.grid.cells.length = c.gw * c.gh ∧ (∀ v ∈ s.grid.cells, v = none) ∧ s.grid.mode = 1 ∧ s.grid.sx = 0 ∧ s.grid.sy = 0 ∧
    s.fifo = [] ∧ s.asm = [] ∧ s.pos = 0

/-- R91, R118: the index an opaque colour `{r, g, b, 0xFF}` has in the palette, 0 when it is unknown. -/
def IsColorIndex (s : State) (c : BitVec 24) (v : Byte) : Prop :=
  let rgba : Word := c ++ (0xFF : BitVec 8)
  (∃ k : Nat, s.pal[k]? = some rgba ∧ (∀ j < k, s.pal[j]? ≠ some rgba) ∧ v = BitVec.ofNat 8 k) ∨ (rgba ∉ s.pal ∧ v = 0)

/-- R85, R86: the words of a command: the header `{OPC, NW, 0}`, then its `NW` argument words. -/
def command (opc : Nat) (args : List Word) : List Word := BitVec.ofNat 32 (opc * 2 ^ 24 + args.length * 2 ^ 16) :: args

/-- R88, R89: the value of an `INT` word, and of a `Q` word. -/
def OperandWordsRead : Prop :=
  ∀ w : Word, intOf w = (if w.toNat < 2 ^ 31 then (w.toNat : ℤ) else (w.toNat : ℤ) - 2 ^ 32) ∧ rat (fixOf w) = (intOf w : ℚ) / 65536

/-- R86: the fields of a header word. -/
def HeaderFieldsRead : Prop :=
  ∀ hdr : Word, hdrOpc hdr = hdr.toNat / 2 ^ 24 ∧ hdrNw hdr = hdr.toNat / 2 ^ 16 % 2 ^ 8 ∧ hdrRsv hdr = hdr.toNat % 2 ^ 16

/-- R94 to R96, with R90 and R91: each row of the opcode map with a fixed word count, at every operand word, its operands in their
order. -/
def FixedRowsDecode : Prop :=
  ∀ a b c d e f g : Word,
    decode (command 0x00 []) = .ok .nop ∧
    decode (command 0x01 [a]) = .ok (.drawen (a ≠ 0)) ∧
    decode (command 0x02 []) = .ok .prerender ∧
    decode (command 0x03 []) = .ok .postrender ∧
    decode (command 0x10 [a]) = .ok (.clear (a.setWidth 24)) ∧
    decode (command 0x11 [a, b]) = .ok (.camera a b) ∧
    decode (command 0x20 [a, b, c]) = .ok (.stile a b c) ∧
    decode (command 0x20 [a, b, c, d, e]) = .ok (.stileSpan a b c d e) ∧
    decode (command 0x21 [a, b]) = .ok (.sorigin a b) ∧
    decode (command 0x22 [a, b]) = .ok (.sflip (a ≠ 0) (b ≠ 0)) ∧
    decode (command 0x23 [a, b]) = .ok (.sscale a b) ∧
    decode (command 0x24 [a]) = .ok (.srot a) ∧
    decode (command 0x25 []) = .ok .sclear ∧
    decode (command 0x26 [a, b]) = .ok (.sdraw a b) ∧
    decode (command 0x27 [a, b, c, d]) = .ok (.sbox a b c d) ∧
    decode (command 0x31 [a, b]) = .ok (.falign a b) ∧
    decode (command 0x32 [a]) = .ok (.fcolor (a.setWidth 24)) ∧
    decode (command 0x33 []) = .ok .fclear ∧
    decode (command 0x41 [a]) = .ok (.tmode a) ∧
    decode (command 0x50 [a]) = .ok (.mmode a) ∧
    decode (command 0x51 [a, b, c, d, e]) = .ok (.mfill a b c d e) ∧
    decode (command 0x51 [a, b, c, d, e, f, g]) = .ok (.mfillSpan a b c d e f g) ∧
    decode (command 0x52 [a, b]) = .ok (.mscroll a b) ∧
    decode (command 0x53 []) = .ok .mclear ∧
    decode (command 0x54 []) = .ok .mdraw ∧
    decode (command 0x60 [a]) = .ok (.palpush a) ∧
    decode (command 0x61 [a]) = .ok (.palpushrgb (a.setWidth 24)) ∧
    decode (command 0x62 [a]) = .ok (.palindex a) ∧
    decode (command 0x63 [a]) = .ok (.palcolor a) ∧
    decode (command 0x64 []) = .ok .palupdate

/-- R92, R94, R95, R97: each row of the opcode map that ends in a string, at every operand word: the string's byte count `n` and its
data words come last, after the fixed operands in their order. `NW` is a byte (R85). -/
def StringRowsDecode : Prop :=
  ∀ (a b c d n : Word) (data : List Word), (data.length : ℤ) = ⌈(n.toNat : ℚ) / 4⌉ →
    let str := unpackStr n.toNat data
    (1 + data.length ≤ 255 → decode (command 0x30 (n :: data)) = .ok (.fnt str) ∧ decode (command 0x40 (n :: data)) = .ok (.tmap str)) ∧
    (2 + data.length ≤ 255 → decode (command 0x71 (a :: n :: data)) = .ok (.loadfnt a str)) ∧
    (3 + data.length ≤ 255 → decode (command 0x34 (a :: b :: n :: data)) = .ok (.fdraw a b str)) ∧
    (5 + data.length ≤ 255 → decode (command 0x70 (a :: b :: c :: d :: n :: data)) = .ok (.loadtm a b c d str))

/-- R101: the opcodes of the gated commands, by R95's map. -/
def gatedOpcodes : List Nat :=
  [0x10, 0x11, 0x20, 0x21, 0x22, 0x23, 0x24, 0x25, 0x26, 0x27, 0x31, 0x32, 0x33, 0x34, 0x50, 0x51, 0x52, 0x53, 0x54]

/-- R95 to R97: the argument counts an opcode without a string allows. -/
def fixedCounts : List (Nat × List Nat) :=
  [(0x00, [0]), (0x01, [1]), (0x02, [0]), (0x03, [0]), (0x10, [1]), (0x11, [2]), (0x20, [3, 5]), (0x21, [2]), (0x22, [2]), (0x23, [2])]
    ++ [(0x24, [1]), (0x25, [0]), (0x26, [2]), (0x27, [4]), (0x31, [2]), (0x32, [1]), (0x33, [0]), (0x41, [1]), (0x50, [1])]
    ++ [(0x51, [5, 7]), (0x52, [2]), (0x53, [0]), (0x54, [0]), (0x60, [1]), (0x61, [1]), (0x62, [1]), (0x63, [1]), (0x64, [0])]

/-- R97: the opcodes whose last operand is a string, with the argument words before it. -/
def stringOpcodes : List (Nat × Nat) := [(0x30, 0), (0x34, 2), (0x40, 0), (0x70, 4), (0x71, 1)]

/-- R96, R97: the argument words have a count that the opcode allows. -/
def CountAllowed (opc : Nat) (args : List Word) : Prop :=
  (∃ l, (opc, l) ∈ fixedCounts ∧ args.length ∈ l) ∨
    ∃ f n, (opc, f) ∈ stringOpcodes ∧ args[f]? = some n ∧ (args.length : ℤ) = f + 1 + ⌈(n.toNat : ℚ) / 4⌉

/-- R98: the reserved opcodes, by its ranges. -/
def reservedOpcode (opc : Nat) : Prop :=
  (0x04 ≤ opc ∧ opc ≤ 0x0F) ∨ (0x12 ≤ opc ∧ opc ≤ 0x1F) ∨ (0x28 ≤ opc ∧ opc ≤ 0x2F) ∨ (0x35 ≤ opc ∧ opc ≤ 0x3F) ∨
    (0x42 ≤ opc ∧ opc ≤ 0x4F) ∨ (0x55 ≤ opc ∧ opc ≤ 0x5F) ∨ (0x65 ≤ opc ∧ opc ≤ 0x6F) ∨ (0x72 ≤ opc ∧ opc ≤ 0xFF)

/-- Commands executed one after another (R77). -/
def execAll : List Instr → State → Host.Outcome State Fault Refusal
  | [], s => .next s
  | i :: is, s =>
    match exec i s with
    | .next t => execAll is t
    | .fault r => .fault r
    | .refused r => .refused r

/-- R165, R166: the iterations of `MFILL` in its loop order: v, u, dv, du, the outermost first. -/
def fillOrder (w h m : Nat) : List FillStep :=
  (List.range h).flatMap fun v => (List.range w).flatMap fun u =>
    (List.range m).flatMap fun dv => (List.range m).map fun du => { u := u, v := v, du := du, dv := dv }

/-- One iteration of `MFILL` hits window cell `(gx, gy)` (R164, R165). -/
def fillHits (s : State) (x y : Int) (f : FillStep) (gx gy : Nat) : Bool :=
  let cx := (x + f.u) * s.grid.mode + f.du - ⌊(s.grid.sx : ℚ) / 8⌋
  let cy := (y + f.v) * s.grid.mode + f.dv - ⌊(s.grid.sy : ℚ) / 8⌋
  match s.cfg.gridOob with
  | .drop => decide (cx = gx ∧ cy = gy)
  | .wrap => decide (cx % s.cfg.gw = gx ∧ cy % s.cfg.gh = gy)

/-- The view one iteration of `MFILL` writes (R165, R173). -/
def fillView (s : State) (id i j : Int) (f : FillStep) : TexRef :=
  if 0 ≤ id ∧ id < s.tm.length then
    some { img := id.toNat, vx := ((i + f.u) * s.grid.mode + f.du) * 8, vy := ((j + f.v) * s.grid.mode + f.dv) * 8, vw := 8, vh := 8 }
  else none

end Sys2Proof.Spec

open Sys2Proof Sys2Proof.Machine Sys2Proof.Spec

/-! ## Encoding -/

/-- The encoding read from the spec, not from the encoder. Every row of R95's map with a fixed word count, at all operand words: header and
operands in R94's order decode to the row's command, a `BOOL` true exactly when its word is not 0 (R90), an `RGB` the low 24 bits of its
word (R91). The fields of a header (R86); the value of an `INT` word (R88) and of a `Q` word (R89). Then the three examples of R105, which
the spec derives from R86, R88, R89 and R92, decode to their commands and are what the encoder writes; R92's packing of "tiles" and a
negative operand decode too (95_test_vectors.md section 2). -/
def Obligations.SpecWordsDecode : Prop :=
  FixedRowsDecode ∧ HeaderFieldsRead ∧ OperandWordsRead ∧
  decode [0x26020000, 0x00080000, 0x00048000] = .ok (.sdraw 0x00080000 0x00048000) ∧
    rat (fixOf 0x00080000) = 8 ∧ rat (fixOf 0x00048000) = 9 / 2 ∧
    encode (.sdraw 0x00080000 0x00048000) = [0x26020000, 0x00080000, 0x00048000] ∧
    decode [0x40020000, 0x00000001, 0x00000041] = .ok (.tmap [0x41]) ∧
    encode (.tmap [0x41]) = [0x40020000, 0x00000001, 0x00000041] ∧
    decode [0x20030000, 0x00000000, 0x00000001, 0x00000000] = .ok (.stile 0 1 0) ∧
    encode (.stile 0 1 0) = [0x20030000, 0x00000000, 0x00000001, 0x00000000] ∧
    decode [0x40030000, 0x00000005, 0x656C6974, 0x00000073] = .ok (.tmap [0x74, 0x69, 0x6C, 0x65, 0x73]) ∧
    decode [0x52020000, 0xFFFFFFFD, 0x00000000] = .ok (.mscroll 0xFFFFFFFD 0) ∧ intOf 0xFFFFFFFD = -3

/-- Decoding an encoded well-formed command gives it back, for every command and every operand value. -/
def Obligations.DecodeOfEncode : Prop := ∀ i : Instr, i.wf = true → decode (encode i) = .ok i

/-- What decodes is well formed, and its encoding has the same header, so the same opcode and the same length. -/
def Obligations.DecodedCommandIsWellFormed : Prop :=
  ∀ ws i, decode ws = .ok i → i.wf = true ∧ (encode i).length = ws.length ∧ (encode i).head? = ws.head?

/-- R96, R97, R98 with R87's `RSV` check: which whole commands are legal. -/
def Obligations.LegalCommandsExactly : Prop :=
  ∀ hdr args, args.length = hdrNw hdr →
    ((∃ i, decode (hdr :: args) = .ok i) ↔ ¬ reservedOpcode (hdrOpc hdr) ∧ hdrRsv hdr = 0 ∧ CountAllowed (hdrOpc hdr) args)

/-- R98: the reserved opcodes are exactly those of its ranges, and a command with one is refused as such. -/
def Obligations.ReservedOpcodesRefused : Prop :=
  ∀ hdr args, args.length = hdrNw hdr →
    (decode (hdr :: args) = .error .reservedOpcode ↔ reservedOpcode (hdrOpc hdr))

/-- R92, R94, R95, R97: every row of the opcode map that ends in a string decodes, at all operand words, to its command with the operands in
their order and the string last; byte `k` of that string is bits `8·(k mod 4) + 7` down to `8·(k mod 4)` of data word `floor(k/4)`. -/
def Obligations.StringBytesPackedLittleEndian : Prop :=
  StringRowsDecode ∧ ∀ (n : Nat) (data : List Word), data.length = strWords n →
    (unpackStr n data).length = n ∧
      ∀ k < n, ∃ w, data[k / 4]? = some w ∧
        (unpackStr n data)[k]? = some (BitVec.ofNat 8 (w.toNat / 2 ^ (8 * (k % 4)) % 256))

/-- R91: an `RGB` operand stands for `{r, g, b, 0xFF}` with `r = w[23:16]`, `g = w[15:8]`, `b = w[7:0]`; bits 31:24 are ignored; and
`CLEAR`, `FCOLOR` and `PALPUSHRGB` use it. -/
def Obligations.RgbOperandIsOpaque : Prop :=
  ∀ w : Word,
    decode [0x10010000, w] = .ok (.clear (rgbOf w)) ∧ decode [0x32010000, w] = .ok (.fcolor (rgbOf w)) ∧
      decode [0x61010000, w] = .ok (.palpushrgb (rgbOf w)) ∧
      bits (rgbaOf (rgbOf w)) 31 24 = bits w 23 16 ∧ bits (rgbaOf (rgbOf w)) 23 16 = bits w 15 8 ∧
      bits (rgbaOf (rgbOf w)) 15 8 = bits w 7 0 ∧ bits (rgbaOf (rgbOf w)) 7 0 = 0xFF

/-! ## The command stream -/

/-- A step runs the decoded command: when every word of a legal command has arrived, the step is `exec` of it on the state whose
assembly is empty. Nothing else is changed around `exec` but the model's own record of racing host writes (log entry 11). -/
def Obligations.StepRunsDecodedCommand : Prop :=
  ∀ s i, commandReady s = true → decode s.asm = .ok i →
    step s = exec i { s with asm := [], raced := s.raced.filter fun r => s.pos - s.asm.length < r.limit }

/-- R99: an illegal command is consumed whole, sets `STATUS.ERR_ILL`, and changes nothing else, whatever `DRAW_EN` holds. As the command
leaves the assembly, the model also drops those of its own records of host writes (`raced`) that can race no longer (log entry 11, DESIGN
CHOICE). -/
def Obligations.IllegalCommandDiscarded : Prop :=
  ∀ s e, commandReady s = true → decode s.asm = .error e →
    step s = .next { s with asm := [], errIll := true, raced := s.raced.filter fun r => s.pos - s.asm.length < r.limit }

/-- R40, with the wait that R106 derives: an incomplete command takes the oldest word of the FIFO, and waits with no effect while there is
none. That one step takes one word is the model's grain of a step (log entry 12, DESIGN CHOICE). A command is ready exactly when its
header and the header's `NW` words have arrived (R87). -/
def Obligations.IncompleteCommandTakesWordsOrWaits : Prop :=
  ∀ s,
    (commandReady s = true ↔ ∃ hdr args, s.asm = hdr :: args ∧ args.length = hdr.toNat / 2 ^ 16 % 2 ^ 8) ∧
    (commandReady s = false →
      (∀ w rest, s.fifo = w :: rest → step s = .next { s with fifo := rest, asm := s.asm ++ [w], pos := s.pos + 1 }) ∧
        (s.fifo = [] → step s = .next s))

/-- R22, R85, R86: from an empty assembly the words of one whole command at the head of the FIFO are assembled; the command-stream
position advances by `1 + NW`, and the words after it stay in the FIFO. That this takes `1 + NW` steps, one for each word, is the model's
own grain of a step (log entry 12, DESIGN CHOICE); no rule of the spec counts steps. -/
def Obligations.WholeCommandIsAssembled : Prop :=
  ∀ s hdr args rest, s.asm = [] → s.fifo = hdr :: args ++ rest → args.length = hdrNw hdr →
    core.run (1 + args.length) s = .next { s with fifo := rest, asm := hdr :: args, pos := s.pos + (1 + args.length) } ∧
      commandReady { s with fifo := rest, asm := hdr :: args, pos := s.pos + (1 + args.length) } = true

/-- R260: nothing stops the command processor: every step of every state gives a next state. -/
def Obligations.NoStepEverStops : Prop := ∀ s, ∃ t, step s = .next t

/-! ## Gating -/

/-- R101: the gated commands are exactly those of its list, and while `DRAW_EN = 0` a gated command has no effect at all. -/
def Obligations.GatedCommandsIdle : Prop :=
  ∀ i s, (isGated i = true ↔ i.opcode ∈ gatedOpcodes) ∧ (isGated i = true → s.drawEn = false → exec i s = .next s)

/-- R102: a command that is not gated does the same whatever `DRAW_EN` holds; `DRAWEN` itself leaves the same state. -/
def Obligations.UngatedCommandsIgnoreDrawEnable : Prop :=
  ∀ s b,
    (∀ i t, isGated i = false → (∀ c, i ≠ .drawen c) → exec i s = .next t →
      exec i { s with drawEn := b } = .next { t with drawEn := b }) ∧
    ∀ c, isGated (.drawen c) = false ∧ exec (.drawen c) { s with drawEn := b } = exec (.drawen c) s

/-! ## Frame control -/

/-- R220, R221, R223: `NOP` and `PRERENDER` change nothing; `DRAWEN` writes `DRAW_EN` alone, and `STATUS` mirrors it. -/
def Obligations.ControlCommands : Prop :=
  ∀ s b, exec .nop s = .next s ∧ exec .prerender s = .next s ∧
    ∃ t, exec (.drawen b) s = .next t ∧ t = { s with drawEn := b } ∧ bits (statusWord t) 0 0 = if b then 1 else 0

/-- R224, R226, R120: `POSTRENDER` delivers one image with one colour a pixel, that of the lookup table wherever the index is in it
(elsewhere a free colour), resets `SC`, and changes nothing else but the count of free values used. The images delivered stand in the
model's own list `presents` (log entry 20, DESIGN CHOICE). -/
def Obligations.PostrenderPresentsFrame : Prop :=
  ∀ s, ∃ img k, exec .postrender s = .next { s with presents := s.presents ++ [img], sc := 0, draws := k } ∧
    img.length = s.fb.length ∧
    ∀ (n : Nat) (v : Byte) (c : Word), s.fb[n]? = some v → s.lut[v.toNat]? = some c → img[n]? = some c

/-- R227, R118: `CLEAR` fills the framebuffer with the colour's index and changes nothing else; also with index 0 under `COMPOSE = key0`,
as R227 says against R32 (log entry 28, DEDUCED). -/
def Obligations.ClearFillsFramebuffer : Prop :=
  ∀ s c, s.drawEn = true →
    ∃ v, IsColorIndex s c v ∧ exec (.clear c) s = .next { s with fb := List.replicate (s.cfg.swidth * s.cfg.sheight) v }

/-- R228, R152: `CAMERA` writes the camera; `TMODE` writes the tile resolution, 8 for any value outside its six, in either state of
`DRAW_EN`. -/
def Obligations.CameraAndTileMode : Prop :=
  ∀ s x y v, (s.drawEn = true → exec (.camera x y) s = .next { s with camX := fixOf x, camY := fixOf y }) ∧
    exec (.tmode v) s = .next { s with tmode := legalTile v.toInt }

/-! ## Sprite -/

/-- R186 to R190: each setter writes its attributes of `NS` and nothing else. -/
def Obligations.SpriteSetters : Prop :=
  ∀ s x y d h v, s.drawEn = true →
    exec (.sorigin x y) s = .next { s with ns := { s.ns with ox := fixOf x, oy := fixOf y } } ∧
    exec (.sflip h v) s = .next { s with ns := { s.ns with flipH := h, flipV := v } } ∧
    exec (.sscale x y) s = .next { s with ns := { s.ns with scaleH := fixOf x, scaleV := fixOf y } } ∧
    exec (.srot d) s = .next { s with ns := { s.ns with rot := fixOf d } } ∧
    exec .sclear s = .next { s with ns :=
      { tex := none, ox := 0, oy := 0, rot := 0, flipH := false, flipV := false, scaleH := 65536, scaleV := 65536 } }

/-- From R37, R187 and R188 (the spec derives it as R192): `SFLIP` and `SSCALE` leave the same state in either order, with the effective
scale the product of the two; and a further `SFLIP` gives its own effective scale and leaves the stored scale alone. -/
def Obligations.FlipAndScaleCommute : Prop :=
  ∀ s a b c d, ∃ t, execAll [.sflip a b, .sscale c d] s = .next t ∧ execAll [.sscale c d, .sflip a b] s = .next t ∧
    (s.drawEn = true →
      t.ns.scaleH = fixOf c ∧ rat (effH t.ns) = rat (fixOf c) * (if a then -1 else 1) ∧
      t.ns.scaleV = fixOf d ∧ rat (effV t.ns) = rat (fixOf d) * (if b then -1 else 1) ∧
      ∀ e f, ∃ u, exec (.sflip e f) t = .next u ∧
        u.ns.scaleH = fixOf c ∧ rat (effH u.ns) = rat (fixOf c) * (if e then -1 else 1) ∧
        u.ns.scaleV = fixOf d ∧ rat (effV u.ns) = rat (fixOf d) * (if f then -1 else 1))

/-- R146, R185, R96: what `STILE` writes to `NS.tex`, and when it logs, in both forms (`w = h = 1.0` in the short one). The rectangle uses
`TMODE`, the bounds check the tilemap's own columns and rows. -/
def Obligations.StileSelectsTile : Prop :=
  ∀ s id i j w h, s.drawEn = true →
    (¬ (0 ≤ intOf id ∧ intOf id < s.tm.length) →
      exec (.stileSpan id i j w h) s = .next { s with logNf := true, ns := { s.ns with tex := none } }) ∧
    (∀ e, 0 ≤ intOf id → s.tm[(intOf id).toNat]? = some e → 1 ≤ e.cell →
      (¬ (0 ≤ intOf i ∧ intOf i < ⌈(e.w : ℚ) / e.cell⌉ ∧ 0 ≤ intOf j ∧ intOf j < ⌈(e.h : ℚ) / e.cell⌉) →
        exec (.stileSpan id i j w h) s = .next { s with logNf := true, ns := { s.ns with tex := none } }) ∧
      (0 ≤ intOf i ∧ intOf i < ⌈(e.w : ℚ) / e.cell⌉ ∧ 0 ≤ intOf j ∧ intOf j < ⌈(e.h : ℚ) / e.cell⌉ →
        let x1 := intOf i * s.tmode
        let y1 := intOf j * s.tmode
        let x2 := min (e.w : Int) (x1 + ⌈rat (fixOf w) * s.tmode⌉)
        let y2 := min (e.h : Int) (y1 + ⌈rat (fixOf h) * s.tmode⌉)
        exec (.stileSpan id i j w h) s = .next { s with ns := { s.ns with
          tex := if x2 ≤ x1 ∨ y2 ≤ y1 then none
            else some { img := (intOf id).toNat, vx := x1, vy := y1, vw := (x2 - x1).toNat, vh := (y2 - y1).toNat } } })) ∧
    ∃ t, exec (.stile id i j) s = .next t ∧ exec (.stileSpan id i j 0x00010000 0x00010000) s = .next t

/-- R193, R197: over budget an `SDRAW` is dropped and nothing changes; under it an empty texture or a zero scale draws nothing
and still counts. -/
def Obligations.SdrawDroppedOrEmpty : Prop :=
  ∀ s x y, s.drawEn = true →
    (s.cfg.numSprites ≤ s.sc → exec (.sdraw x y) s = .next s) ∧
    (s.sc < s.cfg.numSprites → s.ns.tex = none ∨ s.ns.scaleH = 0 ∨ s.ns.scaleV = 0 →
      exec (.sdraw x y) s = .next { s with sc := s.sc + 1 })

/-- R193 (the spec derives the unit for every draw as R196): under budget every `SDRAW`, whatever its texture, angle and scale, changes
the picture, adds one to `SC`, and changes nothing else but the count of free values used. -/
def Obligations.SdrawFrame : Prop :=
  ∀ s x y, s.drawEn = true → s.sc < s.cfg.numSprites →
    ∃ fb k, exec (.sdraw x y) s = .next { s with fb := fb, draws := k, sc := s.sc + 1 } ∧ fb.length = s.fb.length

/-- R181, R182, R72 (the direction of R184 is from general knowledge, as the spec says there): at a multiple of 90 degrees `SDRAW` paints
exactly the pixels whose centre maps into the texture, each from the texel under it, and leaves every other pixel. -/
def Obligations.SdrawPaintsSprite : Prop :=
  ∀ s x y v, s.drawEn = true → s.sc < s.cfg.numSprites → s.raced = [] → FramesOk s →
    s.ns.tex = some v → View.inside s v → s.ns.scaleH ≠ 0 → s.ns.scaleV ≠ 0 → (turned (rat s.ns.rot) 0 0).isSome = true →
    ∃ fb, exec (.sdraw x y) s = .next { s with fb := fb, sc := s.sc + 1 } ∧ fb.length = s.fb.length ∧
      ∀ px < s.cfg.swidth, ∀ py < s.cfg.sheight,
        fb.getD (py * s.cfg.swidth + px) 0 =
          match spriteSource s v (fixOf x) (fixOf y) px py with
          | none => pixelAt s px py
          | some (tx, ty) => painted s v tx ty (pixelAt s px py)

/-- R183: at any other angle the pixels covered, and the texel each reads, are what `RotSample` gives for them (its answer reduced into
the view, log entry 9). -/
def Obligations.SdrawAtOtherAngles : Prop :=
  ∀ s x y v, s.drawEn = true → s.sc < s.cfg.numSprites → s.raced = [] → FramesOk s →
    s.ns.tex = some v → View.inside s v → s.ns.scaleH ≠ 0 → s.ns.scaleV ≠ 0 → turned (rat s.ns.rot) 0 0 = none →
    ∃ fb, exec (.sdraw x y) s = .next { s with fb := fb, sc := s.sc + 1 } ∧ fb.length = s.fb.length ∧
      ∀ px < s.cfg.swidth, ∀ py < s.cfg.sheight, ∀ q : RotQuery,
        rat q.t = rat s.ns.rot - 360 * ⌊rat s.ns.rot / 360⌋ → rat q.ex = effScaleH s.ns → rat q.ey = effScaleV s.ns →
        q.ox = s.ns.ox → q.oy = s.ns.oy → rat q.qx = screenX s (fixOf x) → rat q.qy = screenY s (fixOf y) →
        q.vw = v.vw → q.vh = v.vh → q.px = px → q.py = py →
        fb.getD (py * s.cfg.swidth + px) 0 =
          match Config.rotSample q with
          | none => pixelAt s px py
          | some (tx, ty) => painted s v (tx % v.vw) (ty % v.vh) (pixelAt s px py)

/-- From R193, R24 and R224 (the spec derives it as R194): a run of `SDRAW`s from any count draws until the budget is used and no further;
`POSTRENDER` resets the count. -/
def Obligations.BudgetCountsSdraws : Prop :=
  ∀ s (ps : List (Word × Word)), s.drawEn = true → s.sc ≤ s.cfg.numSprites →
    ∃ t, execAll (ps.map fun p => .sdraw p.1 p.2) s = .next t ∧ t.sc = min (s.sc + ps.length) s.cfg.numSprites ∧
      ∃ u, exec .postrender t = .next u ∧ u.sc = 0

/-! ## Nine-slice -/

/-- R206, R211, R212, R213: the count an `SBOX` adds to `SC`, and that it changes only the picture beside. -/
def Obligations.SboxCount : Prop :=
  ∀ s x y w h v, s.drawEn = true → s.ns.tex = some v → 3 ≤ v.vw → 3 ≤ v.vh →
    ∃ fb k, exec (.sbox x y w h) s = .next { s with
        fb := fb, draws := k,
        sc := s.sc + min (s.cfg.numSprites - s.sc) (listLength (intOf w) (intOf h) (v.vw / 3) (v.vh / 3)) } ∧
      fb.length = s.fb.length

/-- R215: with an empty or too small source `SBOX` writes no pixel and adds a free count in `[0, B]`. -/
def Obligations.SboxDegenerate : Prop :=
  ∀ s x y w h, s.drawEn = true → (∀ v, s.ns.tex = some v → v.vw < 3 ∨ v.vh < 3) →
    ∃ n k, n ≤ s.cfg.numSprites - s.sc ∧ exec (.sbox x y w h) s = .next { s with sc := s.sc + n, draws := k }

/-- R207, R208, R211: `SBOX` performs the first `B` elements of R207's list in its order, each a slice of the view laid unscaled on the
screen, a later one over an earlier one. -/
def Obligations.SboxPaintsListPrefix : Prop :=
  ∀ s x y w h v, s.drawEn = true → s.raced = [] → FramesOk s → s.ns.tex = some v → View.inside s v → 3 ≤ v.vw → 3 ≤ v.vh →
    ∃ fb n, exec (.sbox x y w h) s = .next { s with fb := fb, sc := n } ∧
      ∀ px < s.cfg.swidth, ∀ py < s.cfg.sheight,
        fb.getD (py * s.cfg.swidth + px) 0 =
          ((drawList (intOf x) (intOf y) (intOf w) (intOf h) (v.vw / 3) (v.vh / 3)).take (s.cfg.numSprites - s.sc)).foldl
            (fun old e =>
              if e.dx ≤ (px : Int) ∧ (px : Int) < e.dx + e.cw ∧ e.dy ≤ (py : Int) ∧ (py : Int) < e.dy + e.ch then
                painted s v (e.a * (v.vw / 3 : Nat) + (px - e.dx)) (e.b * (v.vh / 3 : Nat) + (py - e.dy)) old
              else old)
            (pixelAt s px py)

/-- R205 to R209: an `SBOX` with budget to spare, whose corners do not overlap, fills exactly its target rectangle, each pixel from the
corner, the tiled edge or the tiled centre it lies in. -/
def Obligations.SboxFillsRectangle : Prop :=
  ∀ s x y w h v, s.drawEn = true → s.raced = [] → FramesOk s → s.ns.tex = some v → View.inside s v → 3 ≤ v.vw → 3 ≤ v.vh →
    2 * (v.vw / 3 : Nat) ≤ intOf w → 2 * (v.vh / 3 : Nat) ≤ intOf h →
    s.sc + listLength (intOf w) (intOf h) (v.vw / 3) (v.vh / 3) ≤ s.cfg.numSprites →
    ∃ fb n, exec (.sbox x y w h) s = .next { s with fb := fb, sc := n } ∧
      ∀ px < s.cfg.swidth, ∀ py < s.cfg.sheight,
        fb.getD (py * s.cfg.swidth + px) 0 =
          if intOf x ≤ px ∧ px < intOf x + intOf w ∧ intOf y ≤ py ∧ py < intOf y + intOf h then
            painted s v (boxSource (intOf w) (v.vw / 3) (px - intOf x)) (boxSource (intOf h) (v.vh / 3) (py - intOf y)) (pixelAt s px py)
          else pixelAt s px py

/-! ## Text -/

/-- R241 to R243: each setter writes its attributes of `NT` and nothing else; the colour is looked up at once. -/
def Obligations.TextSetters : Prop :=
  ∀ s x y c, s.drawEn = true →
    exec (.falign x y) s = .next { s with nt := { s.nt with alignX := fixOf x, alignY := fixOf y } } ∧
    (∃ v, IsColorIndex s c v ∧ exec (.fcolor c) s = .next { s with nt := { s.nt with color := v } }) ∧
    exec .fclear s = .next { s with nt := { font := none, alignX := 0, alignY := 0, color := 0 } }

/-- R240: `FNT` selects and returns the lowest font of that name, or logs, deselects and returns -1. -/
def Obligations.FntSelectsFont : Prop :=
  ∀ s name,
    (∀ (k : Nat) e, s.font[k]? = some e → e.name = name → (∀ (j : Nat) d, j < k → s.font[j]? = some d → d.name ≠ name) →
      exec (.fnt name) s = .next { s with nt := { s.nt with font := some k }, result := BitVec.ofNat 32 k }) ∧
    ((∀ e ∈ s.font, e.name ≠ name) →
      exec (.fnt name) s = .next { s with logNf := true, nt := { s.nt with font := none }, result := 0xFFFFFFFF })

/-- R244, R245, R248, R249: `FDRAW` paints exactly the covered pixels of the platform's raster, placed through the camera and shifted
by the alignment, and changes nothing else: not `SC`, not `NT`. With no font selected it changes nothing at all. -/
def Obligations.FdrawPaintsText : Prop :=
  ∀ s x y text, s.drawEn = true → FramesOk s →
    (s.nt.font = none → exec (.fdraw x y text) s = .next s) ∧
    ∀ k f, s.nt.font = some k → s.font[k]? = some f →
      let r := Config.fontRaster f.fid text
      let x0 := ⌊screenX s (fixOf x)⌋ - ⌊(r.tw : ℚ) * rat s.nt.alignX⌋
      let y0 := ⌊screenY s (fixOf y)⌋ - ⌊(r.th : ℚ) * rat s.nt.alignY⌋
      ∃ fb, exec (.fdraw x y text) s = .next { s with fb := fb } ∧ fb.length = s.fb.length ∧
        ∀ px < s.cfg.swidth, ∀ py < s.cfg.sheight,
          (∀ u v, (u, v) ∈ r.cov → u < r.tw → v < r.th → (px : Int) = x0 + u → (py : Int) = y0 + v →
            fb.getD (py * s.cfg.swidth + px) 0 = plotted s.cfg (pixelAt s px py) s.nt.color) ∧
          ((∀ u v, (u, v) ∈ r.cov → u < r.tw → v < r.th → ¬ ((px : Int) = x0 + u ∧ (py : Int) = y0 + v)) →
            fb.getD (py * s.cfg.swidth + px) 0 = pixelAt s px py)

/-! ## Tilemaps and the grid -/

/-- R151: `TMAP` returns the lowest tilemap of that name, or logs and returns -1. -/
def Obligations.TmapFindsTilemap : Prop :=
  ∀ s name,
    (∀ (k : Nat) e, s.tm[k]? = some e → e.name = name → (∀ (j : Nat) d, j < k → s.tm[j]? = some d → d.name ≠ name) →
      exec (.tmap name) s = .next { s with result := BitVec.ofNat 32 k }) ∧
    ((∀ e ∈ s.tm, e.name ≠ name) → exec (.tmap name) s = .next { s with logNf := true, result := 0xFFFFFFFF })

/-- R161, R162, R167, R168: what `MMODE`, `MSCROLL` and `MCLEAR` write, and nothing else; the grid is `GW × GH` cells (R160). -/
def Obligations.GridSetters : Prop :=
  ∀ s v x y, s.drawEn = true →
    (s.cfg.gw : ℤ) = ⌈(s.cfg.swidth : ℚ) / 8⌉ + 1 ∧ (s.cfg.gh : ℤ) = ⌈(s.cfg.sheight : ℚ) / 8⌉ + 1 ∧
    exec (.mmode v) s = .next { s with grid := { s.grid with
      mode := if v.toInt < 16 then 1 else if v.toInt < 32 then 2 else if v.toInt < 64 then 4 else 8 } } ∧
    exec (.mscroll x y) s = .next { s with grid := { s.grid with sx := x.toInt, sy := y.toInt } } ∧
    (∃ cells, exec .mclear s = .next { s with grid := { s.grid with cells := cells } } ∧
      cells.length = s.cfg.gw * s.cfg.gh ∧ ∀ c ∈ cells, c = none)

/-- R164, R165, R166, R173, R96: what `MFILL` leaves in each cell of the window, under either reading of an index outside it: the view of
the last iteration, in the loop order v, u, dv, du, that hits the cell; and that it changes nothing else but the not-found bit. -/
def Obligations.MfillWritesCells : Prop :=
  ∀ s x y id i j w h, s.drawEn = true → s.grid.cells.length = s.cfg.gw * s.cfg.gh →
    (∃ cells, exec (.mfillSpan x y id i j w h) s = .next { s with
        logNf := s.logNf || !decide (0 ≤ intOf id ∧ intOf id < s.tm.length), grid := { s.grid with cells := cells } } ∧
      cells.length = s.grid.cells.length ∧
      ∀ gx < s.cfg.gw, ∀ gy < s.cfg.gh,
        cells.getD (gy * s.cfg.gw + gx) none =
          (fillOrder (intOf w).toNat (intOf h).toNat s.grid.mode).foldl
            (fun old f => if fillHits s (intOf x) (intOf y) f gx gy then fillView s (intOf id) (intOf i) (intOf j) f else old)
            (s.grid.cells.getD (gy * s.cfg.gw + gx) none)) ∧
    ∃ t, exec (.mfill x y id i j) s = .next t ∧ exec (.mfillSpan x y id i j 1 1) s = .next t

/-- R165 in closed form under `GRID_OOB = drop`: cell `(gx, gy)` of the window is written exactly when it lies in the filled rectangle of
`w·m × h·m` cells, with the source cell at the same place in the tilemap. -/
def Obligations.MfillDropClosedForm : Prop :=
  ∀ s x y id i j w h, s.drawEn = true → GridOk s → s.cfg.gridOob = .drop →
    ∃ cells, exec (.mfillSpan x y id i j w h) s = .next { s with
        logNf := s.logNf || !decide (0 ≤ intOf id ∧ intOf id < s.tm.length), grid := { s.grid with cells := cells } } ∧
      ∀ gx < s.cfg.gw, ∀ gy < s.cfg.gh,
        let m : Int := s.grid.mode
        let lx := gx + ⌊(s.grid.sx : ℚ) / 8⌋ - intOf x * m
        let ly := gy + ⌊(s.grid.sy : ℚ) / 8⌋ - intOf y * m
        cells.getD (gy * s.cfg.gw + gx) none =
          if 0 ≤ lx ∧ lx < intOf w * m ∧ 0 ≤ ly ∧ ly < intOf h * m then
            if 0 ≤ intOf id ∧ intOf id < s.tm.length then
              some { img := (intOf id).toNat, vx := (intOf i * m + lx) * 8, vy := (intOf j * m + ly) * 8, vw := 8, vh := 8 }
            else none
          else s.grid.cells.getD (gy * s.cfg.gw + gx) none

/-- From R163, R170, R171, R73 and R68: `MDRAW` changes at most the framebuffer's contents (and the count of free values used) in every
state; `SC` and the camera play no part. Without a race every pixel lies in one cell of the grid (the coverage that the spec infers as R172
from R160, R163 and R170) and shows the texel of that cell that covers it, where that texel is inside its image. -/
def Obligations.MdrawPaintsGrid : Prop :=
  ∀ s, s.drawEn = true →
    ∃ fb k, exec .mdraw s = .next { s with fb := fb, draws := k } ∧ fb.length = s.fb.length ∧
      (s.raced = [] → FramesOk s → GridOk s →
        ∀ px < s.cfg.swidth, ∀ py < s.cfg.sheight,
          let cx := px + (s.grid.sx % 8).toNat
          let cy := py + (s.grid.sy % 8).toNat
          cx / 8 < s.cfg.gw ∧ cy / 8 < s.cfg.gh ∧
          match s.grid.cells.getD (cy / 8 * s.cfg.gw + cx / 8) none with
          | none => fb.getD (py * s.cfg.swidth + px) 0 = pixelAt s px py
          | some v => ∀ b, texelIndex s v (cx % 8 : Nat) (cy % 8 : Nat) = some b →
              fb.getD (py * s.cfg.swidth + px) 0 = plotted s.cfg (pixelAt s px py) b)

/-! ## Palette -/

/-- R111, R113: the three outcomes of a push, and nothing else changed: the lowest index of a known colour, a new index while there is
room, and 0 with `PAL_OVF` when there is none; an RGB push is the push of the opaque colour. -/
def Obligations.PalpushReturnsIndex : Prop :=
  ∀ s c (d : BitVec 24),
    (∀ k : Nat, s.pal[k]? = some c → (∀ j < k, s.pal[j]? ≠ some c) → exec (.palpush c) s = .next { s with result := BitVec.ofNat 32 k }) ∧
    (c ∉ s.pal → s.pal.length < s.cfg.palCap →
      exec (.palpush c) s = .next { s with pal := s.pal ++ [c], result := BitVec.ofNat 32 s.pal.length }) ∧
    (c ∉ s.pal → s.cfg.palCap ≤ s.pal.length → exec (.palpush c) s = .next { s with palOvf := true, result := 0 }) ∧
    ∃ t, exec (.palpushrgb d) s = .next t ∧ exec (.palpush (d ++ (0xFF : BitVec 8))) s = .next t

/-- R115, R116, R117: looking up a colour, reading an entry, and rebuilding the lookup table, each changing nothing else. -/
def Obligations.PaletteReadsAndUpdate : Prop :=
  ∀ s c i,
    (∀ k : Nat, s.pal[k]? = some c → (∀ j < k, s.pal[j]? ≠ some c) →
      exec (.palindex c) s = .next { s with result := BitVec.ofNat 32 k }) ∧
    (c ∉ s.pal → exec (.palindex c) s = .next { s with result := 0xFFFFFFFF }) ∧
    (∀ e, 0 ≤ intOf i → s.pal[(intOf i).toNat]? = some e → exec (.palcolor i) s = .next { s with result := e }) ∧
    (intOf i < 0 ∨ (s.pal.length : Int) ≤ intOf i → exec (.palcolor i) s = .next { s with result := 0 }) ∧
    exec .palupdate s = .next { s with lut := s.pal }

/-- From R111 and R30 (the spec derives it as R112): pushing the same colour twice returns the same index and adds nothing, and the index
is below `PAL_CAP`. -/
def Obligations.PushTwiceSameIndex : Prop :=
  ∀ s c, s.cfg.wf = true → PaletteOk s →
    ∃ t u, exec (.palpush c) s = .next t ∧ exec (.palpush c) t = .next u ∧
      u.result = t.result ∧ u.pal = t.pal ∧ t.result.toNat < s.cfg.palCap

/-! ## Assets -/

/-- R133: a load that fails a check changes `RESULT` alone. -/
def Obligations.RejectedLoad : Prop :=
  ∀ s base w h cell name,
    intOf base < 0 ∨ intOf base % 4 ≠ 0 ∨ intOf w < 1 ∨ intOf h < 1 ∨
      (s.cfg.texmemBytes : Int) < intOf base + 4 * intOf w * intOf h ∨ s.cfg.tmMax ≤ s.tm.length →
    exec (.loadtm base w h cell name) s = .next { s with result := 0xFFFFFFFF }

/-- R133, R137, R138: a load that passes its checks, in any state, registers its tilemap at the end of the registry, returns its index,
changes only what R133 names (and the count of free values used), and writes no byte of texture memory outside the image. A load
is accepted also where its image overlaps a registered one, since R133's checks do not look at those (log entry 27, DESIGN CHOICE). -/
def Obligations.AcceptedLoadFrame : Prop :=
  ∀ s base w h cell name,
    0 ≤ intOf base → intOf base % 4 = 0 → 1 ≤ intOf w → 1 ≤ intOf h → intOf base + 4 * intOf w * intOf h ≤ s.cfg.texmemBytes →
    s.tm.length < s.cfg.tmMax →
    ∃ pal ovf mem aux k, exec (.loadtm base w h cell name) s = .next { s with
        pal := s.pal ++ pal, palOvf := ovf, texmem := mem, aux := aux, draws := k,
        tm := s.tm ++ [{ name := name, base := (intOf base).toNat, w := (intOf w).toNat, h := (intOf h).toNat,
                         cell := legalTile (intOf cell) }],
        result := BitVec.ofNat 32 s.tm.length } ∧
      ∀ a : Nat, ¬ (intOf base ≤ a ∧ (a : Int) < intOf base + 4 * intOf w * intOf h) →
        State.texByte { s with texmem := mem } a = s.texByte a

/-- R131, R132, R134, R111: without a race, an accepted load pushes exactly the colours of the image, x in the outer loop and y in the
inner one; it leaves in each pixel `(0, 0, index, 255)` where the palette holds the pixel's original colour at that index, or the palette is
full without it and the index is 0; it sets `PAL_OVF` exactly when a colour of the image found no room; and `AUX` counts the distinct
indices. That the load runs so also where its image overlaps a registered one is the model's choice against R65 (log entry 27, DESIGN
CHOICE); the original colour is then the one the bytes held before this load. -/
def Obligations.LoadPalettizesImage : Prop :=
  ∀ s base w h cell name,
    0 ≤ intOf base → intOf base % 4 = 0 → 1 ≤ intOf w → 1 ≤ intOf h → intOf base + 4 * intOf w * intOf h ≤ s.cfg.texmemBytes →
    s.tm.length < s.cfg.tmMax → s.raced = [] → s.cfg.wf = true → PaletteOk s →
    ∃ t, exec (.loadtm base w h cell name) s = .next t ∧
      (∀ x < (intOf w).toNat, ∀ y < (intOf h).toNat,
        let a := (intOf base).toNat + 4 * (y * (intOf w).toNat + x)
        let c := pixelColor s (intOf base).toNat (intOf w).toNat x y
        t.texByte a = 0 ∧ t.texByte (a + 1) = 0 ∧ t.texByte (a + 3) = 255 ∧
          (t.pal[(t.texByte (a + 2)).toNat]? = some c ∨
            (t.texByte (a + 2) = 0 ∧ t.palOvf = true ∧ t.pal.length = s.cfg.palCap ∧ c ∉ t.pal))) ∧
      t.pal = (imageColors s (intOf base).toNat (intOf w).toNat (intOf h).toNat).foldl (pushColor s.cfg.palCap) s.pal ∧
      (t.palOvf = true ↔
        s.palOvf = true ∨ ∃ c ∈ imageColors s (intOf base).toNat (intOf w).toNat (intOf h).toNat, c ∉ t.pal) ∧
      t.aux = BitVec.ofNat 32 ((rowMajor (intOf w).toNat (intOf h).toNat).map fun p =>
        t.texByte ((intOf base).toNat + 4 * (p.2 * (intOf w).toNat + p.1) + 2)).dedup.length

/-- From R111, R117, R120 and R132 (the spec derives it as R122): after a load that overflows nothing (run with `PAL_OVF` clear it leaves it
clear) and a `PALUPDATE`, the lookup colour of every pixel's stored index is the pixel's original colour. That this holds also where the
image overlaps a registered one is the model's choice against R65 (log entry 27, DESIGN CHOICE). -/
def Obligations.PaletteRoundTrip : Prop :=
  ∀ s base w h cell name t,
    0 ≤ intOf base → intOf base % 4 = 0 → 1 ≤ intOf w → 1 ≤ intOf h → intOf base + 4 * intOf w * intOf h ≤ s.cfg.texmemBytes →
    s.tm.length < s.cfg.tmMax → s.raced = [] → s.cfg.wf = true → PaletteOk s →
    exec (.loadtm base w h cell name) { s with palOvf := false } = .next t → t.palOvf = false →
    ∃ v u, exec (.loadtm base w h cell name) s = .next v ∧ exec .palupdate v = .next u ∧
      ∀ x < (intOf w).toNat, ∀ y < (intOf h).toNat,
        u.lut[(u.texByte ((intOf base).toNat + 4 * (y * (intOf w).toNat + x) + 2)).toNat]? =
          some (pixelColor s (intOf base).toNat (intOf w).toNat x y)

/-- R140: a font is registered at the end of the registry and its index returned, or the registry is full and only `RESULT` changes. -/
def Obligations.LoadfntRegisters : Prop :=
  ∀ s fid name,
    (s.font.length < s.cfg.fontMax →
      exec (.loadfnt fid name) s = .next { s with
        font := s.font ++ [{ name := name, fid := fid.toInt }], result := BitVec.ofNat 32 s.font.length }) ∧
    (s.cfg.fontMax ≤ s.font.length → exec (.loadfnt fid name) s = .next { s with result := 0xFFFFFFFF })

/-! ## The whole machine -/

/-- R281: what reset leaves, for every configuration, where the rule gives a value: at `State.reset`, and after the reset input (R280) at
any time in any state, with the parameters kept (R282). -/
def Obligations.ResetValues : Prop :=
  (∀ c r, IsResetState c (State.resetWith c r)) ∧ IsResetState Config.platform State.reset ∧ ∀ s : State, IsResetState s.cfg s.resetInput

/-- The invariants hold right after reset, with the parameter values that R7 decides (log entry 2). -/
def Obligations.ResetMeetsInvariants : Prop :=
  State.reset.Inv ∧ State.reset.cfg.palCap = 64 ∧ State.reset.cfg.compose = .overwrite ∧ State.reset.cfg.gridOob = .drop

/-- R30, R31, R24, R60, R63: every step keeps the palette's laws, the draw counter's bound, and texture memory canonical and inside its
address range. -/
def Obligations.StepKeepsPaletteBudgetTexmem : Prop :=
  ∀ s t, step s = .next t →
    (PaletteOk s → PaletteOk t) ∧ (BudgetOk s → BudgetOk t) ∧ (TexmemOk s → TexmemOk t)

/-- R34, R35, R36, R38, R26, R146: every step keeps the registries legal, the sprite's view inside its image, the text's font registered and
the attributes in range. -/
def Obligations.StepKeepsRegistriesAndAttributes : Prop :=
  ∀ s t, RegistriesOk s → AttributesOk s → TmodeOk s → step s = .next t → RegistriesOk t ∧ AttributesOk t ∧ TmodeOk t

/-- R32, R39, R226, R40: every step keeps the size of the framebuffer and of every image presented, the grid's size, mode and views, and no
more than one command in assembly. -/
def Obligations.StepKeepsShapes : Prop :=
  ∀ s t, FramesOk s → GridOk s → StreamOk s → step s = .next t → FramesOk t ∧ GridOk t ∧ StreamOk t

/-- Every step keeps every invariant of the state. -/
def Obligations.StepKeepsInvariants : Prop := ∀ s t, s.Inv → step s = .next t → t.Inv

/-- R282, R30, R138, R35, R29, R226: what only grows: a step changes no parameter, no palette entry, no registered tilemap or font and no
image already presented, and clears no sticky bit. -/
def Obligations.StepOnlyExtends : Prop :=
  ∀ s t, step s = .next t →
    t.cfg = s.cfg ∧ s.pal <+: t.pal ∧ s.tm <+: t.tm ∧ s.font <+: t.font ∧ s.presents <+: t.presents ∧
      (s.errIll = true → t.errIll = true) ∧ (s.logNf = true → t.logNf = true) ∧ (s.palOvf = true → t.palOvf = true)

/-- R23 to R28, R31, R33, R191, R246: which commands write what. Every field that no command of its list executes keeps its value. A byte of
texture memory changes only by a `LOADTM` of an image that holds it; so no command but such a load writes a byte of a registered image after
its own load (R65, and log entry 27, DESIGN CHOICE, for a load over a registered image). -/
def Obligations.OnlyNamedCommandsWrite : Prop :=
  ∀ i s t, exec i s = .next t →
    (t.drawEn ≠ s.drawEn → i.opcode = 0x01) ∧
    (t.sc ≠ s.sc → i.opcode ∈ [0x03, 0x26, 0x27]) ∧
    ((t.camX, t.camY) ≠ (s.camX, s.camY) → i.opcode = 0x11) ∧
    (t.tmode ≠ s.tmode → i.opcode = 0x41) ∧
    (t.result ≠ s.result → i.opcode ∈ [0x30, 0x40, 0x60, 0x61, 0x62, 0x63, 0x70, 0x71]) ∧
    (t.aux ≠ s.aux → i.opcode = 0x70) ∧
    (t.pal ≠ s.pal → i.opcode ∈ [0x60, 0x61, 0x70]) ∧
    (t.lut ≠ s.lut → i.opcode = 0x64) ∧
    (t.fb ≠ s.fb → i.opcode ∈ [0x10, 0x26, 0x27, 0x34, 0x54]) ∧
    (t.texmem ≠ s.texmem → i.opcode = 0x70) ∧
    (∀ a : Nat, t.texByte a ≠ s.texByte a → ∃ base w h cell name, i = .loadtm base w h cell name ∧
      intOf base ≤ a ∧ (a : Int) < intOf base + 4 * intOf w * intOf h) ∧
    (t.tm ≠ s.tm → i.opcode = 0x70) ∧
    (t.font ≠ s.font → i.opcode = 0x71) ∧
    (t.ns ≠ s.ns → i.opcode ∈ [0x20, 0x21, 0x22, 0x23, 0x24, 0x25]) ∧
    (t.nt ≠ s.nt → i.opcode ∈ [0x30, 0x31, 0x32, 0x33]) ∧
    (t.grid ≠ s.grid → i.opcode ∈ [0x50, 0x51, 0x52, 0x53]) ∧
    (t.logNf ≠ s.logNf → i.opcode ∈ [0x20, 0x30, 0x40, 0x51]) ∧
    (t.palOvf ≠ s.palOvf → i.opcode ∈ [0x60, 0x61, 0x70]) ∧
    (t.presents ≠ s.presents → i.opcode = 0x03) ∧
    t.cfg = s.cfg ∧ t.errIll = s.errIll ∧ t.fifo = s.fifo ∧ t.asm = s.asm ∧ t.pos = s.pos ∧ t.raced = s.raced ∧ t.resets = s.resets

/-! ## The host's side -/

/-- R41, R42, R43, R45, R46, R29: the block answers the 256 bytes from `PPU_BASE`. `CMD` reads 0 at once, whatever is pending. `STATUS` holds
`DRAW_EN`, `ERR_ILL`, `LOG_NF` and `PAL_OVF` in bits 0 to 3 and 0 in bits 31:4, in every state. An aligned read of any register but `CMD`
once every command has completed gives its content and changes nothing. That a count or a parameter shows modulo 2^32
is the model's choice (log entry 3, DESIGN CHOICE); it is the value itself wherever that is below 2^32. -/
def Obligations.RegisterWindowReads : Prop :=
  ∀ s,
    regRead 0x00 4 s = .done 0 s ∧
    ((statusWord s).getLsbD 0 = s.drawEn ∧ (statusWord s).getLsbD 1 = s.errIll ∧ (statusWord s).getLsbD 2 = s.logNf ∧
      (statusWord s).getLsbD 3 = s.palOvf ∧ ∀ k, 4 ≤ k → (statusWord s).getLsbD k = false) ∧
    (∀ off size w, off < 256 →
      busRead (s.cfg.ppuBase + off) size s = regRead off size s ∧ busWrite (s.cfg.ppuBase + off) size w s = regWrite off size w s) ∧
    (s.asm = [] → s.fifo = [] →
      regRead 0x04 4 s = .done s.result s ∧ regRead 0x08 4 s = .done (statusWord s) s ∧
      regRead 0x0C 4 s = .done (BitVec.ofNat 32 s.sc) s ∧ regRead 0x10 4 s = .done (BitVec.ofNat 32 s.pal.length) s ∧
      regRead 0x14 4 s = .done (BitVec.ofNat 32 s.tm.length) s ∧ regRead 0x18 4 s = .done (BitVec.ofNat 32 s.font.length) s ∧
      regRead 0x1C 4 s = .done s.aux s ∧ regRead 0x20 4 s = .done (BitVec.ofNat 32 s.cfg.swidth) s ∧
      regRead 0x24 4 s = .done (BitVec.ofNat 32 s.cfg.sheight) s ∧ regRead 0x28 4 s = .done (BitVec.ofNat 32 s.cfg.numSprites) s ∧
      regRead 0x2C 4 s = .done (BitVec.ofNat 32 s.cfg.tnum) s ∧ regRead 0x30 4 s = .done (BitVec.ofNat 32 s.cfg.palCap) s ∧
      regRead 0x34 4 s = .done 1 s ∧ ∀ k, 0x38 ≤ 4 * k → 4 * k ≤ 0xFC → regRead (4 * k) 4 s = .done 0 s)

/-- R44, R29: a write of `w` to `STATUS` clears each sticky bit whose bit of `w` is 1, ignores every other bit of `w`, and changes
nothing else. -/
def Obligations.StatusWriteClearsOnes : Prop :=
  ∀ s w, s.asm = [] → s.fifo = [] →
    ∃ a b c, regWrite 0x08 4 w s = .done 0 { s with errIll := a, logNf := b, palOvf := c } ∧
      (a = true ↔ s.errIll = true ∧ w.getLsbD 1 = false) ∧ (b = true ↔ s.logNf = true ∧ w.getLsbD 2 = false) ∧
      (c = true ↔ s.palOvf = true ∧ w.getLsbD 3 = false)

/-- R40, R42, R43, R46, R80: the FIFO takes a `CMD` write when it has room and makes it wait when it has none; any other register access
waits while a command word is unconsumed or a command incomplete; an access that is not an aligned 32-bit one is refused; a write to a
read-only or reserved register has no effect. -/
def Obligations.RegisterPortProtocol : Prop :=
  ∀ s off size w,
    (s.fifo.length < s.cfg.fifoDepth → regWrite 0 4 w s = .done 0 { s with fifo := s.fifo ++ [w] }) ∧
    (s.cfg.fifoDepth ≤ s.fifo.length → regWrite 0 4 w s = .wait) ∧
    (off % 4 = 0 → 4 ≤ off → off ≤ 0xFC → s.asm ≠ [] ∨ s.fifo ≠ [] → regRead off 4 s = .wait ∧ regWrite off 4 w s = .wait) ∧
    (off % 4 ≠ 0 ∨ size ≠ 4 → regRead off size s = .refused .registerAccess ∧ regWrite off size w s = .refused .registerAccess) ∧
    (off % 4 = 0 → 4 ≤ off → off ≤ 0xFC → off ≠ 8 → s.asm = [] → s.fifo = [] → regWrite off 4 w s = .done 0 s)

/-- R62, R67, R74: in any state an aligned host read of 1, 2 or 4 bytes gives the bytes currently stored, little-endian, and changes
nothing. An aligned host write stores its bytes little-endian and changes no other byte and nothing else (but the model's record of races,
log entry 11, DESIGN CHOICE), and the same read then gives the value back. A misaligned access, one past `TEXMEM_BYTES`, or one of another
size is refused. -/
def Obligations.TexturePortReadsBack : Prop :=
  ∀ s addr size w,
    (size = 1 ∨ size = 2 ∨ size = 4 → addr % size = 0 → addr + size ≤ s.cfg.texmemBytes →
      (∃ v, texPortRead addr size s = .done v s ∧
        ∀ k < 4, v.extractLsb' (8 * k) 8 = if k < size then s.texByte (addr + k) else 0) ∧
      ∃ t, texPortWrite addr size w s = .done 0 t ∧ t = { s with texmem := t.texmem, raced := t.raced } ∧
        texPortRead addr size t = .done (BitVec.ofNat 32 (w.toNat % 2 ^ (8 * size))) t ∧
        (∀ k < size, t.texByte (addr + k) = BitVec.ofNat 8 (w.toNat / 2 ^ (8 * k))) ∧
        ∀ a, a < addr ∨ addr + size ≤ a → t.texByte a = s.texByte a) ∧
    (addr % size ≠ 0 ∨ s.cfg.texmemBytes < addr + size ∨ ¬ (size = 1 ∨ size = 2 ∨ size = 4) →
      texPortRead addr size s = .refused .texmemAccess ∧ texPortWrite addr size w s = .refused .texmemAccess)

/-- R79: a host write to texture memory while no command is pending is simply seen; one performed while a command is pending leaves a read
of that byte by the command the old or the new byte, and no other byte is in doubt (the model's record, log entry 11). -/
def Obligations.HostWriteRacesWithPendingCommand : Prop :=
  ∀ s a v,
    (s.asm = [] → s.fifo = [] → hostStore a v s = s.storeByte a v) ∧
    (∀ b, (hostStore a v s).texByte b = if b = a then v else s.texByte b) ∧
    (s.raced = [] →
      ((texRead8 a (hostStore a v s)).1 = v ∨ (texRead8 a (hostStore a v s)).1 = s.texByte a) ∧
      ∀ b, b ≠ a → texRead8 b (hostStore a v s) = (s.texByte b, hostStore a v s))

/-- Every host access keeps every invariant: a read at either port leaves the whole state as it is (R67), and a register write, a
texture-memory write and the reset input (R47, R280) keep the invariants. -/
def Obligations.HostAccessKeepsInvariants : Prop :=
  ∀ s, s.Inv →
    (∀ addr size v t, busRead addr size s = .done v t → t = s) ∧
    (∀ addr size v t, texPortRead addr size s = .done v t → t = s) ∧
    (∀ addr size w v t, busWrite addr size w s = .done v t → t.Inv) ∧
    (∀ addr size w v t, texPortWrite addr size w s = .done v t → t.Inv) ∧
    s.resetInput.Inv
end

