-- ==== Sys2Proof/Laws/State.lean ====
section
/-! SUPPORT. One lemma per field per field write of `Machine/Ops.lean` and `Machine/Flags.lean`, each true by unfolding, so that no
later proof unfolds a record update. -/

namespace Sys2Proof.Machine

variable (s : State)

@[simp] theorem State.setDrawEn_cfg (v : Bool) : (s.setDrawEn v).cfg = s.cfg := rfl
@[simp] theorem State.setDrawEn_drawEn (v : Bool) : (s.setDrawEn v).drawEn = v := rfl
@[simp] theorem State.setDrawEn_sc (v : Bool) : (s.setDrawEn v).sc = s.sc := rfl
@[simp] theorem State.setDrawEn_camX (v : Bool) : (s.setDrawEn v).camX = s.camX := rfl
@[simp] theorem State.setDrawEn_camY (v : Bool) : (s.setDrawEn v).camY = s.camY := rfl
@[simp] theorem State.setDrawEn_tmode (v : Bool) : (s.setDrawEn v).tmode = s.tmode := rfl
@[simp] theorem State.setDrawEn_result (v : Bool) : (s.setDrawEn v).result = s.result := rfl
@[simp] theorem State.setDrawEn_aux (v : Bool) : (s.setDrawEn v).aux = s.aux := rfl
@[simp] theorem State.setDrawEn_errIll (v : Bool) : (s.setDrawEn v).errIll = s.errIll := rfl
@[simp] theorem State.setDrawEn_logNf (v : Bool) : (s.setDrawEn v).logNf = s.logNf := rfl
@[simp] theorem State.setDrawEn_palOvf (v : Bool) : (s.setDrawEn v).palOvf = s.palOvf := rfl
@[simp] theorem State.setDrawEn_pal (v : Bool) : (s.setDrawEn v).pal = s.pal := rfl
@[simp] theorem State.setDrawEn_lut (v : Bool) : (s.setDrawEn v).lut = s.lut := rfl
@[simp] theorem State.setDrawEn_fb (v : Bool) : (s.setDrawEn v).fb = s.fb := rfl
@[simp] theorem State.setDrawEn_texmem (v : Bool) : (s.setDrawEn v).texmem = s.texmem := rfl
@[simp] theorem State.setDrawEn_tm (v : Bool) : (s.setDrawEn v).tm = s.tm := rfl
@[simp] theorem State.setDrawEn_font (v : Bool) : (s.setDrawEn v).font = s.font := rfl
@[simp] theorem State.setDrawEn_ns (v : Bool) : (s.setDrawEn v).ns = s.ns := rfl
@[simp] theorem State.setDrawEn_nt (v : Bool) : (s.setDrawEn v).nt = s.nt := rfl
@[simp] theorem State.setDrawEn_grid (v : Bool) : (s.setDrawEn v).grid = s.grid := rfl
@[simp] theorem State.setDrawEn_fifo (v : Bool) : (s.setDrawEn v).fifo = s.fifo := rfl
@[simp] theorem State.setDrawEn_asm (v : Bool) : (s.setDrawEn v).asm = s.asm := rfl
@[simp] theorem State.setDrawEn_pos (v : Bool) : (s.setDrawEn v).pos = s.pos := rfl
@[simp] theorem State.setDrawEn_presents (v : Bool) : (s.setDrawEn v).presents = s.presents := rfl
@[simp] theorem State.setDrawEn_raced (v : Bool) : (s.setDrawEn v).raced = s.raced := rfl
@[simp] theorem State.setDrawEn_resets (v : Bool) : (s.setDrawEn v).resets = s.resets := rfl
@[simp] theorem State.setDrawEn_draws (v : Bool) : (s.setDrawEn v).draws = s.draws := rfl

@[simp] theorem State.setSc_cfg (v : Nat) : (s.setSc v).cfg = s.cfg := rfl
@[simp] theorem State.setSc_drawEn (v : Nat) : (s.setSc v).drawEn = s.drawEn := rfl
@[simp] theorem State.setSc_sc (v : Nat) : (s.setSc v).sc = v := rfl
@[simp] theorem State.setSc_camX (v : Nat) : (s.setSc v).camX = s.camX := rfl
@[simp] theorem State.setSc_camY (v : Nat) : (s.setSc v).camY = s.camY := rfl
@[simp] theorem State.setSc_tmode (v : Nat) : (s.setSc v).tmode = s.tmode := rfl
@[simp] theorem State.setSc_result (v : Nat) : (s.setSc v).result = s.result := rfl
@[simp] theorem State.setSc_aux (v : Nat) : (s.setSc v).aux = s.aux := rfl
@[simp] theorem State.setSc_errIll (v : Nat) : (s.setSc v).errIll = s.errIll := rfl
@[simp] theorem State.setSc_logNf (v : Nat) : (s.setSc v).logNf = s.logNf := rfl
@[simp] theorem State.setSc_palOvf (v : Nat) : (s.setSc v).palOvf = s.palOvf := rfl
@[simp] theorem State.setSc_pal (v : Nat) : (s.setSc v).pal = s.pal := rfl
@[simp] theorem State.setSc_lut (v : Nat) : (s.setSc v).lut = s.lut := rfl
@[simp] theorem State.setSc_fb (v : Nat) : (s.setSc v).fb = s.fb := rfl
@[simp] theorem State.setSc_texmem (v : Nat) : (s.setSc v).texmem = s.texmem := rfl
@[simp] theorem State.setSc_tm (v : Nat) : (s.setSc v).tm = s.tm := rfl
@[simp] theorem State.setSc_font (v : Nat) : (s.setSc v).font = s.font := rfl
@[simp] theorem State.setSc_ns (v : Nat) : (s.setSc v).ns = s.ns := rfl
@[simp] theorem State.setSc_nt (v : Nat) : (s.setSc v).nt = s.nt := rfl
@[simp] theorem State.setSc_grid (v : Nat) : (s.setSc v).grid = s.grid := rfl
@[simp] theorem State.setSc_fifo (v : Nat) : (s.setSc v).fifo = s.fifo := rfl
@[simp] theorem State.setSc_asm (v : Nat) : (s.setSc v).asm = s.asm := rfl
@[simp] theorem State.setSc_pos (v : Nat) : (s.setSc v).pos = s.pos := rfl
@[simp] theorem State.setSc_presents (v : Nat) : (s.setSc v).presents = s.presents := rfl
@[simp] theorem State.setSc_raced (v : Nat) : (s.setSc v).raced = s.raced := rfl
@[simp] theorem State.setSc_resets (v : Nat) : (s.setSc v).resets = s.resets := rfl
@[simp] theorem State.setSc_draws (v : Nat) : (s.setSc v).draws = s.draws := rfl

@[simp] theorem State.setCam_cfg (x y : Fix) : (s.setCam x y).cfg = s.cfg := rfl
@[simp] theorem State.setCam_drawEn (x y : Fix) : (s.setCam x y).drawEn = s.drawEn := rfl
@[simp] theorem State.setCam_sc (x y : Fix) : (s.setCam x y).sc = s.sc := rfl
@[simp] theorem State.setCam_camX (x y : Fix) : (s.setCam x y).camX = x := rfl
@[simp] theorem State.setCam_camY (x y : Fix) : (s.setCam x y).camY = y := rfl
@[simp] theorem State.setCam_tmode (x y : Fix) : (s.setCam x y).tmode = s.tmode := rfl
@[simp] theorem State.setCam_result (x y : Fix) : (s.setCam x y).result = s.result := rfl
@[simp] theorem State.setCam_aux (x y : Fix) : (s.setCam x y).aux = s.aux := rfl
@[simp] theorem State.setCam_errIll (x y : Fix) : (s.setCam x y).errIll = s.errIll := rfl
@[simp] theorem State.setCam_logNf (x y : Fix) : (s.setCam x y).logNf = s.logNf := rfl
@[simp] theorem State.setCam_palOvf (x y : Fix) : (s.setCam x y).palOvf = s.palOvf := rfl
@[simp] theorem State.setCam_pal (x y : Fix) : (s.setCam x y).pal = s.pal := rfl
@[simp] theorem State.setCam_lut (x y : Fix) : (s.setCam x y).lut = s.lut := rfl
@[simp] theorem State.setCam_fb (x y : Fix) : (s.setCam x y).fb = s.fb := rfl
@[simp] theorem State.setCam_texmem (x y : Fix) : (s.setCam x y).texmem = s.texmem := rfl
@[simp] theorem State.setCam_tm (x y : Fix) : (s.setCam x y).tm = s.tm := rfl
@[simp] theorem State.setCam_font (x y : Fix) : (s.setCam x y).font = s.font := rfl
@[simp] theorem State.setCam_ns (x y : Fix) : (s.setCam x y).ns = s.ns := rfl
@[simp] theorem State.setCam_nt (x y : Fix) : (s.setCam x y).nt = s.nt := rfl
@[simp] theorem State.setCam_grid (x y : Fix) : (s.setCam x y).grid = s.grid := rfl
@[simp] theorem State.setCam_fifo (x y : Fix) : (s.setCam x y).fifo = s.fifo := rfl
@[simp] theorem State.setCam_asm (x y : Fix) : (s.setCam x y).asm = s.asm := rfl
@[simp] theorem State.setCam_pos (x y : Fix) : (s.setCam x y).pos = s.pos := rfl
@[simp] theorem State.setCam_presents (x y : Fix) : (s.setCam x y).presents = s.presents := rfl
@[simp] theorem State.setCam_raced (x y : Fix) : (s.setCam x y).raced = s.raced := rfl
@[simp] theorem State.setCam_resets (x y : Fix) : (s.setCam x y).resets = s.resets := rfl
@[simp] theorem State.setCam_draws (x y : Fix) : (s.setCam x y).draws = s.draws := rfl

@[simp] theorem State.setTmode_cfg (v : Nat) : (s.setTmode v).cfg = s.cfg := rfl
@[simp] theorem State.setTmode_drawEn (v : Nat) : (s.setTmode v).drawEn = s.drawEn := rfl
@[simp] theorem State.setTmode_sc (v : Nat) : (s.setTmode v).sc = s.sc := rfl
@[simp] theorem State.setTmode_camX (v : Nat) : (s.setTmode v).camX = s.camX := rfl
@[simp] theorem State.setTmode_camY (v : Nat) : (s.setTmode v).camY = s.camY := rfl
@[simp] theorem State.setTmode_tmode (v : Nat) : (s.setTmode v).tmode = v := rfl
@[simp] theorem State.setTmode_result (v : Nat) : (s.setTmode v).result = s.result := rfl
@[simp] theorem State.setTmode_aux (v : Nat) : (s.setTmode v).aux = s.aux := rfl
@[simp] theorem State.setTmode_errIll (v : Nat) : (s.setTmode v).errIll = s.errIll := rfl
@[simp] theorem State.setTmode_logNf (v : Nat) : (s.setTmode v).logNf = s.logNf := rfl
@[simp] theorem State.setTmode_palOvf (v : Nat) : (s.setTmode v).palOvf = s.palOvf := rfl
@[simp] theorem State.setTmode_pal (v : Nat) : (s.setTmode v).pal = s.pal := rfl
@[simp] theorem State.setTmode_lut (v : Nat) : (s.setTmode v).lut = s.lut := rfl
@[simp] theorem State.setTmode_fb (v : Nat) : (s.setTmode v).fb = s.fb := rfl
@[simp] theorem State.setTmode_texmem (v : Nat) : (s.setTmode v).texmem = s.texmem := rfl
@[simp] theorem State.setTmode_tm (v : Nat) : (s.setTmode v).tm = s.tm := rfl
@[simp] theorem State.setTmode_font (v : Nat) : (s.setTmode v).font = s.font := rfl
@[simp] theorem State.setTmode_ns (v : Nat) : (s.setTmode v).ns = s.ns := rfl
@[simp] theorem State.setTmode_nt (v : Nat) : (s.setTmode v).nt = s.nt := rfl
@[simp] theorem State.setTmode_grid (v : Nat) : (s.setTmode v).grid = s.grid := rfl
@[simp] theorem State.setTmode_fifo (v : Nat) : (s.setTmode v).fifo = s.fifo := rfl
@[simp] theorem State.setTmode_asm (v : Nat) : (s.setTmode v).asm = s.asm := rfl
@[simp] theorem State.setTmode_pos (v : Nat) : (s.setTmode v).pos = s.pos := rfl
@[simp] theorem State.setTmode_presents (v : Nat) : (s.setTmode v).presents = s.presents := rfl
@[simp] theorem State.setTmode_raced (v : Nat) : (s.setTmode v).raced = s.raced := rfl
@[simp] theorem State.setTmode_resets (v : Nat) : (s.setTmode v).resets = s.resets := rfl
@[simp] theorem State.setTmode_draws (v : Nat) : (s.setTmode v).draws = s.draws := rfl

@[simp] theorem State.setResult_cfg (v : Int) : (s.setResult v).cfg = s.cfg := rfl
@[simp] theorem State.setResult_drawEn (v : Int) : (s.setResult v).drawEn = s.drawEn := rfl
@[simp] theorem State.setResult_sc (v : Int) : (s.setResult v).sc = s.sc := rfl
@[simp] theorem State.setResult_camX (v : Int) : (s.setResult v).camX = s.camX := rfl
@[simp] theorem State.setResult_camY (v : Int) : (s.setResult v).camY = s.camY := rfl
@[simp] theorem State.setResult_tmode (v : Int) : (s.setResult v).tmode = s.tmode := rfl
@[simp] theorem State.setResult_result (v : Int) : (s.setResult v).result = BitVec.ofInt 32 v := rfl
@[simp] theorem State.setResult_aux (v : Int) : (s.setResult v).aux = s.aux := rfl
@[simp] theorem State.setResult_errIll (v : Int) : (s.setResult v).errIll = s.errIll := rfl
@[simp] theorem State.setResult_logNf (v : Int) : (s.setResult v).logNf = s.logNf := rfl
@[simp] theorem State.setResult_palOvf (v : Int) : (s.setResult v).palOvf = s.palOvf := rfl
@[simp] theorem State.setResult_pal (v : Int) : (s.setResult v).pal = s.pal := rfl
@[simp] theorem State.setResult_lut (v : Int) : (s.setResult v).lut = s.lut := rfl
@[simp] theorem State.setResult_fb (v : Int) : (s.setResult v).fb = s.fb := rfl
@[simp] theorem State.setResult_texmem (v : Int) : (s.setResult v).texmem = s.texmem := rfl
@[simp] theorem State.setResult_tm (v : Int) : (s.setResult v).tm = s.tm := rfl
@[simp] theorem State.setResult_font (v : Int) : (s.setResult v).font = s.font := rfl
@[simp] theorem State.setResult_ns (v : Int) : (s.setResult v).ns = s.ns := rfl
@[simp] theorem State.setResult_nt (v : Int) : (s.setResult v).nt = s.nt := rfl
@[simp] theorem State.setResult_grid (v : Int) : (s.setResult v).grid = s.grid := rfl
@[simp] theorem State.setResult_fifo (v : Int) : (s.setResult v).fifo = s.fifo := rfl
@[simp] theorem State.setResult_asm (v : Int) : (s.setResult v).asm = s.asm := rfl
@[simp] theorem State.setResult_pos (v : Int) : (s.setResult v).pos = s.pos := rfl
@[simp] theorem State.setResult_presents (v : Int) : (s.setResult v).presents = s.presents := rfl
@[simp] theorem State.setResult_raced (v : Int) : (s.setResult v).raced = s.raced := rfl
@[simp] theorem State.setResult_resets (v : Int) : (s.setResult v).resets = s.resets := rfl
@[simp] theorem State.setResult_draws (v : Int) : (s.setResult v).draws = s.draws := rfl

@[simp] theorem State.setAux_cfg (v : Nat) : (s.setAux v).cfg = s.cfg := rfl
@[simp] theorem State.setAux_drawEn (v : Nat) : (s.setAux v).drawEn = s.drawEn := rfl
@[simp] theorem State.setAux_sc (v : Nat) : (s.setAux v).sc = s.sc := rfl
@[simp] theorem State.setAux_camX (v : Nat) : (s.setAux v).camX = s.camX := rfl
@[simp] theorem State.setAux_camY (v : Nat) : (s.setAux v).camY = s.camY := rfl
@[simp] theorem State.setAux_tmode (v : Nat) : (s.setAux v).tmode = s.tmode := rfl
@[simp] theorem State.setAux_result (v : Nat) : (s.setAux v).result = s.result := rfl
@[simp] theorem State.setAux_aux (v : Nat) : (s.setAux v).aux = BitVec.ofNat 32 v := rfl
@[simp] theorem State.setAux_errIll (v : Nat) : (s.setAux v).errIll = s.errIll := rfl
@[simp] theorem State.setAux_logNf (v : Nat) : (s.setAux v).logNf = s.logNf := rfl
@[simp] theorem State.setAux_palOvf (v : Nat) : (s.setAux v).palOvf = s.palOvf := rfl
@[simp] theorem State.setAux_pal (v : Nat) : (s.setAux v).pal = s.pal := rfl
@[simp] theorem State.setAux_lut (v : Nat) : (s.setAux v).lut = s.lut := rfl
@[simp] theorem State.setAux_fb (v : Nat) : (s.setAux v).fb = s.fb := rfl
@[simp] theorem State.setAux_texmem (v : Nat) : (s.setAux v).texmem = s.texmem := rfl
@[simp] theorem State.setAux_tm (v : Nat) : (s.setAux v).tm = s.tm := rfl
@[simp] theorem State.setAux_font (v : Nat) : (s.setAux v).font = s.font := rfl
@[simp] theorem State.setAux_ns (v : Nat) : (s.setAux v).ns = s.ns := rfl
@[simp] theorem State.setAux_nt (v : Nat) : (s.setAux v).nt = s.nt := rfl
@[simp] theorem State.setAux_grid (v : Nat) : (s.setAux v).grid = s.grid := rfl
@[simp] theorem State.setAux_fifo (v : Nat) : (s.setAux v).fifo = s.fifo := rfl
@[simp] theorem State.setAux_asm (v : Nat) : (s.setAux v).asm = s.asm := rfl
@[simp] theorem State.setAux_pos (v : Nat) : (s.setAux v).pos = s.pos := rfl
@[simp] theorem State.setAux_presents (v : Nat) : (s.setAux v).presents = s.presents := rfl
@[simp] theorem State.setAux_raced (v : Nat) : (s.setAux v).raced = s.raced := rfl
@[simp] theorem State.setAux_resets (v : Nat) : (s.setAux v).resets = s.resets := rfl
@[simp] theorem State.setAux_draws (v : Nat) : (s.setAux v).draws = s.draws := rfl

@[simp] theorem State.setPal_cfg (v : List Word) : (s.setPal v).cfg = s.cfg := rfl
@[simp] theorem State.setPal_drawEn (v : List Word) : (s.setPal v).drawEn = s.drawEn := rfl
@[simp] theorem State.setPal_sc (v : List Word) : (s.setPal v).sc = s.sc := rfl
@[simp] theorem State.setPal_camX (v : List Word) : (s.setPal v).camX = s.camX := rfl
@[simp] theorem State.setPal_camY (v : List Word) : (s.setPal v).camY = s.camY := rfl
@[simp] theorem State.setPal_tmode (v : List Word) : (s.setPal v).tmode = s.tmode := rfl
@[simp] theorem State.setPal_result (v : List Word) : (s.setPal v).result = s.result := rfl
@[simp] theorem State.setPal_aux (v : List Word) : (s.setPal v).aux = s.aux := rfl
@[simp] theorem State.setPal_errIll (v : List Word) : (s.setPal v).errIll = s.errIll := rfl
@[simp] theorem State.setPal_logNf (v : List Word) : (s.setPal v).logNf = s.logNf := rfl
@[simp] theorem State.setPal_palOvf (v : List Word) : (s.setPal v).palOvf = s.palOvf := rfl
@[simp] theorem State.setPal_pal (v : List Word) : (s.setPal v).pal = v := rfl
@[simp] theorem State.setPal_lut (v : List Word) : (s.setPal v).lut = s.lut := rfl
@[simp] theorem State.setPal_fb (v : List Word) : (s.setPal v).fb = s.fb := rfl
@[simp] theorem State.setPal_texmem (v : List Word) : (s.setPal v).texmem = s.texmem := rfl
@[simp] theorem State.setPal_tm (v : List Word) : (s.setPal v).tm = s.tm := rfl
@[simp] theorem State.setPal_font (v : List Word) : (s.setPal v).font = s.font := rfl
@[simp] theorem State.setPal_ns (v : List Word) : (s.setPal v).ns = s.ns := rfl
@[simp] theorem State.setPal_nt (v : List Word) : (s.setPal v).nt = s.nt := rfl
@[simp] theorem State.setPal_grid (v : List Word) : (s.setPal v).grid = s.grid := rfl
@[simp] theorem State.setPal_fifo (v : List Word) : (s.setPal v).fifo = s.fifo := rfl
@[simp] theorem State.setPal_asm (v : List Word) : (s.setPal v).asm = s.asm := rfl
@[simp] theorem State.setPal_pos (v : List Word) : (s.setPal v).pos = s.pos := rfl
@[simp] theorem State.setPal_presents (v : List Word) : (s.setPal v).presents = s.presents := rfl
@[simp] theorem State.setPal_raced (v : List Word) : (s.setPal v).raced = s.raced := rfl
@[simp] theorem State.setPal_resets (v : List Word) : (s.setPal v).resets = s.resets := rfl
@[simp] theorem State.setPal_draws (v : List Word) : (s.setPal v).draws = s.draws := rfl

@[simp] theorem State.setLut_cfg (v : List Word) : (s.setLut v).cfg = s.cfg := rfl
@[simp] theorem State.setLut_drawEn (v : List Word) : (s.setLut v).drawEn = s.drawEn := rfl
@[simp] theorem State.setLut_sc (v : List Word) : (s.setLut v).sc = s.sc := rfl
@[simp] theorem State.setLut_camX (v : List Word) : (s.setLut v).camX = s.camX := rfl
@[simp] theorem State.setLut_camY (v : List Word) : (s.setLut v).camY = s.camY := rfl
@[simp] theorem State.setLut_tmode (v : List Word) : (s.setLut v).tmode = s.tmode := rfl
@[simp] theorem State.setLut_result (v : List Word) : (s.setLut v).result = s.result := rfl
@[simp] theorem State.setLut_aux (v : List Word) : (s.setLut v).aux = s.aux := rfl
@[simp] theorem State.setLut_errIll (v : List Word) : (s.setLut v).errIll = s.errIll := rfl
@[simp] theorem State.setLut_logNf (v : List Word) : (s.setLut v).logNf = s.logNf := rfl
@[simp] theorem State.setLut_palOvf (v : List Word) : (s.setLut v).palOvf = s.palOvf := rfl
@[simp] theorem State.setLut_pal (v : List Word) : (s.setLut v).pal = s.pal := rfl
@[simp] theorem State.setLut_lut (v : List Word) : (s.setLut v).lut = v := rfl
@[simp] theorem State.setLut_fb (v : List Word) : (s.setLut v).fb = s.fb := rfl
@[simp] theorem State.setLut_texmem (v : List Word) : (s.setLut v).texmem = s.texmem := rfl
@[simp] theorem State.setLut_tm (v : List Word) : (s.setLut v).tm = s.tm := rfl
@[simp] theorem State.setLut_font (v : List Word) : (s.setLut v).font = s.font := rfl
@[simp] theorem State.setLut_ns (v : List Word) : (s.setLut v).ns = s.ns := rfl
@[simp] theorem State.setLut_nt (v : List Word) : (s.setLut v).nt = s.nt := rfl
@[simp] theorem State.setLut_grid (v : List Word) : (s.setLut v).grid = s.grid := rfl
@[simp] theorem State.setLut_fifo (v : List Word) : (s.setLut v).fifo = s.fifo := rfl
@[simp] theorem State.setLut_asm (v : List Word) : (s.setLut v).asm = s.asm := rfl
@[simp] theorem State.setLut_pos (v : List Word) : (s.setLut v).pos = s.pos := rfl
@[simp] theorem State.setLut_presents (v : List Word) : (s.setLut v).presents = s.presents := rfl
@[simp] theorem State.setLut_raced (v : List Word) : (s.setLut v).raced = s.raced := rfl
@[simp] theorem State.setLut_resets (v : List Word) : (s.setLut v).resets = s.resets := rfl
@[simp] theorem State.setLut_draws (v : List Word) : (s.setLut v).draws = s.draws := rfl

@[simp] theorem State.setFb_cfg (v : List Byte) : (s.setFb v).cfg = s.cfg := rfl
@[simp] theorem State.setFb_drawEn (v : List Byte) : (s.setFb v).drawEn = s.drawEn := rfl
@[simp] theorem State.setFb_sc (v : List Byte) : (s.setFb v).sc = s.sc := rfl
@[simp] theorem State.setFb_camX (v : List Byte) : (s.setFb v).camX = s.camX := rfl
@[simp] theorem State.setFb_camY (v : List Byte) : (s.setFb v).camY = s.camY := rfl
@[simp] theorem State.setFb_tmode (v : List Byte) : (s.setFb v).tmode = s.tmode := rfl
@[simp] theorem State.setFb_result (v : List Byte) : (s.setFb v).result = s.result := rfl
@[simp] theorem State.setFb_aux (v : List Byte) : (s.setFb v).aux = s.aux := rfl
@[simp] theorem State.setFb_errIll (v : List Byte) : (s.setFb v).errIll = s.errIll := rfl
@[simp] theorem State.setFb_logNf (v : List Byte) : (s.setFb v).logNf = s.logNf := rfl
@[simp] theorem State.setFb_palOvf (v : List Byte) : (s.setFb v).palOvf = s.palOvf := rfl
@[simp] theorem State.setFb_pal (v : List Byte) : (s.setFb v).pal = s.pal := rfl
@[simp] theorem State.setFb_lut (v : List Byte) : (s.setFb v).lut = s.lut := rfl
@[simp] theorem State.setFb_fb (v : List Byte) : (s.setFb v).fb = v := rfl
@[simp] theorem State.setFb_texmem (v : List Byte) : (s.setFb v).texmem = s.texmem := rfl
@[simp] theorem State.setFb_tm (v : List Byte) : (s.setFb v).tm = s.tm := rfl
@[simp] theorem State.setFb_font (v : List Byte) : (s.setFb v).font = s.font := rfl
@[simp] theorem State.setFb_ns (v : List Byte) : (s.setFb v).ns = s.ns := rfl
@[simp] theorem State.setFb_nt (v : List Byte) : (s.setFb v).nt = s.nt := rfl
@[simp] theorem State.setFb_grid (v : List Byte) : (s.setFb v).grid = s.grid := rfl
@[simp] theorem State.setFb_fifo (v : List Byte) : (s.setFb v).fifo = s.fifo := rfl
@[simp] theorem State.setFb_asm (v : List Byte) : (s.setFb v).asm = s.asm := rfl
@[simp] theorem State.setFb_pos (v : List Byte) : (s.setFb v).pos = s.pos := rfl
@[simp] theorem State.setFb_presents (v : List Byte) : (s.setFb v).presents = s.presents := rfl
@[simp] theorem State.setFb_raced (v : List Byte) : (s.setFb v).raced = s.raced := rfl
@[simp] theorem State.setFb_resets (v : List Byte) : (s.setFb v).resets = s.resets := rfl
@[simp] theorem State.setFb_draws (v : List Byte) : (s.setFb v).draws = s.draws := rfl

@[simp] theorem State.setTexmem_cfg (v : Memory) : (s.setTexmem v).cfg = s.cfg := rfl
@[simp] theorem State.setTexmem_drawEn (v : Memory) : (s.setTexmem v).drawEn = s.drawEn := rfl
@[simp] theorem State.setTexmem_sc (v : Memory) : (s.setTexmem v).sc = s.sc := rfl
@[simp] theorem State.setTexmem_camX (v : Memory) : (s.setTexmem v).camX = s.camX := rfl
@[simp] theorem State.setTexmem_camY (v : Memory) : (s.setTexmem v).camY = s.camY := rfl
@[simp] theorem State.setTexmem_tmode (v : Memory) : (s.setTexmem v).tmode = s.tmode := rfl
@[simp] theorem State.setTexmem_result (v : Memory) : (s.setTexmem v).result = s.result := rfl
@[simp] theorem State.setTexmem_aux (v : Memory) : (s.setTexmem v).aux = s.aux := rfl
@[simp] theorem State.setTexmem_errIll (v : Memory) : (s.setTexmem v).errIll = s.errIll := rfl
@[simp] theorem State.setTexmem_logNf (v : Memory) : (s.setTexmem v).logNf = s.logNf := rfl
@[simp] theorem State.setTexmem_palOvf (v : Memory) : (s.setTexmem v).palOvf = s.palOvf := rfl
@[simp] theorem State.setTexmem_pal (v : Memory) : (s.setTexmem v).pal = s.pal := rfl
@[simp] theorem State.setTexmem_lut (v : Memory) : (s.setTexmem v).lut = s.lut := rfl
@[simp] theorem State.setTexmem_fb (v : Memory) : (s.setTexmem v).fb = s.fb := rfl
@[simp] theorem State.setTexmem_texmem (v : Memory) : (s.setTexmem v).texmem = v := rfl
@[simp] theorem State.setTexmem_tm (v : Memory) : (s.setTexmem v).tm = s.tm := rfl
@[simp] theorem State.setTexmem_font (v : Memory) : (s.setTexmem v).font = s.font := rfl
@[simp] theorem State.setTexmem_ns (v : Memory) : (s.setTexmem v).ns = s.ns := rfl
@[simp] theorem State.setTexmem_nt (v : Memory) : (s.setTexmem v).nt = s.nt := rfl
@[simp] theorem State.setTexmem_grid (v : Memory) : (s.setTexmem v).grid = s.grid := rfl
@[simp] theorem State.setTexmem_fifo (v : Memory) : (s.setTexmem v).fifo = s.fifo := rfl
@[simp] theorem State.setTexmem_asm (v : Memory) : (s.setTexmem v).asm = s.asm := rfl
@[simp] theorem State.setTexmem_pos (v : Memory) : (s.setTexmem v).pos = s.pos := rfl
@[simp] theorem State.setTexmem_presents (v : Memory) : (s.setTexmem v).presents = s.presents := rfl
@[simp] theorem State.setTexmem_raced (v : Memory) : (s.setTexmem v).raced = s.raced := rfl
@[simp] theorem State.setTexmem_resets (v : Memory) : (s.setTexmem v).resets = s.resets := rfl
@[simp] theorem State.setTexmem_draws (v : Memory) : (s.setTexmem v).draws = s.draws := rfl

@[simp] theorem State.setTm_cfg (v : List TmEntry) : (s.setTm v).cfg = s.cfg := rfl
@[simp] theorem State.setTm_drawEn (v : List TmEntry) : (s.setTm v).drawEn = s.drawEn := rfl
@[simp] theorem State.setTm_sc (v : List TmEntry) : (s.setTm v).sc = s.sc := rfl
@[simp] theorem State.setTm_camX (v : List TmEntry) : (s.setTm v).camX = s.camX := rfl
@[simp] theorem State.setTm_camY (v : List TmEntry) : (s.setTm v).camY = s.camY := rfl
@[simp] theorem State.setTm_tmode (v : List TmEntry) : (s.setTm v).tmode = s.tmode := rfl
@[simp] theorem State.setTm_result (v : List TmEntry) : (s.setTm v).result = s.result := rfl
@[simp] theorem State.setTm_aux (v : List TmEntry) : (s.setTm v).aux = s.aux := rfl
@[simp] theorem State.setTm_errIll (v : List TmEntry) : (s.setTm v).errIll = s.errIll := rfl
@[simp] theorem State.setTm_logNf (v : List TmEntry) : (s.setTm v).logNf = s.logNf := rfl
@[simp] theorem State.setTm_palOvf (v : List TmEntry) : (s.setTm v).palOvf = s.palOvf := rfl
@[simp] theorem State.setTm_pal (v : List TmEntry) : (s.setTm v).pal = s.pal := rfl
@[simp] theorem State.setTm_lut (v : List TmEntry) : (s.setTm v).lut = s.lut := rfl
@[simp] theorem State.setTm_fb (v : List TmEntry) : (s.setTm v).fb = s.fb := rfl
@[simp] theorem State.setTm_texmem (v : List TmEntry) : (s.setTm v).texmem = s.texmem := rfl
@[simp] theorem State.setTm_tm (v : List TmEntry) : (s.setTm v).tm = v := rfl
@[simp] theorem State.setTm_font (v : List TmEntry) : (s.setTm v).font = s.font := rfl
@[simp] theorem State.setTm_ns (v : List TmEntry) : (s.setTm v).ns = s.ns := rfl
@[simp] theorem State.setTm_nt (v : List TmEntry) : (s.setTm v).nt = s.nt := rfl
@[simp] theorem State.setTm_grid (v : List TmEntry) : (s.setTm v).grid = s.grid := rfl
@[simp] theorem State.setTm_fifo (v : List TmEntry) : (s.setTm v).fifo = s.fifo := rfl
@[simp] theorem State.setTm_asm (v : List TmEntry) : (s.setTm v).asm = s.asm := rfl
@[simp] theorem State.setTm_pos (v : List TmEntry) : (s.setTm v).pos = s.pos := rfl
@[simp] theorem State.setTm_presents (v : List TmEntry) : (s.setTm v).presents = s.presents := rfl
@[simp] theorem State.setTm_raced (v : List TmEntry) : (s.setTm v).raced = s.raced := rfl
@[simp] theorem State.setTm_resets (v : List TmEntry) : (s.setTm v).resets = s.resets := rfl
@[simp] theorem State.setTm_draws (v : List TmEntry) : (s.setTm v).draws = s.draws := rfl

@[simp] theorem State.setFont_cfg (v : List FontEntry) : (s.setFont v).cfg = s.cfg := rfl
@[simp] theorem State.setFont_drawEn (v : List FontEntry) : (s.setFont v).drawEn = s.drawEn := rfl
@[simp] theorem State.setFont_sc (v : List FontEntry) : (s.setFont v).sc = s.sc := rfl
@[simp] theorem State.setFont_camX (v : List FontEntry) : (s.setFont v).camX = s.camX := rfl
@[simp] theorem State.setFont_camY (v : List FontEntry) : (s.setFont v).camY = s.camY := rfl
@[simp] theorem State.setFont_tmode (v : List FontEntry) : (s.setFont v).tmode = s.tmode := rfl
@[simp] theorem State.setFont_result (v : List FontEntry) : (s.setFont v).result = s.result := rfl
@[simp] theorem State.setFont_aux (v : List FontEntry) : (s.setFont v).aux = s.aux := rfl
@[simp] theorem State.setFont_errIll (v : List FontEntry) : (s.setFont v).errIll = s.errIll := rfl
@[simp] theorem State.setFont_logNf (v : List FontEntry) : (s.setFont v).logNf = s.logNf := rfl
@[simp] theorem State.setFont_palOvf (v : List FontEntry) : (s.setFont v).palOvf = s.palOvf := rfl
@[simp] theorem State.setFont_pal (v : List FontEntry) : (s.setFont v).pal = s.pal := rfl
@[simp] theorem State.setFont_lut (v : List FontEntry) : (s.setFont v).lut = s.lut := rfl
@[simp] theorem State.setFont_fb (v : List FontEntry) : (s.setFont v).fb = s.fb := rfl
@[simp] theorem State.setFont_texmem (v : List FontEntry) : (s.setFont v).texmem = s.texmem := rfl
@[simp] theorem State.setFont_tm (v : List FontEntry) : (s.setFont v).tm = s.tm := rfl
@[simp] theorem State.setFont_font (v : List FontEntry) : (s.setFont v).font = v := rfl
@[simp] theorem State.setFont_ns (v : List FontEntry) : (s.setFont v).ns = s.ns := rfl
@[simp] theorem State.setFont_nt (v : List FontEntry) : (s.setFont v).nt = s.nt := rfl
@[simp] theorem State.setFont_grid (v : List FontEntry) : (s.setFont v).grid = s.grid := rfl
@[simp] theorem State.setFont_fifo (v : List FontEntry) : (s.setFont v).fifo = s.fifo := rfl
@[simp] theorem State.setFont_asm (v : List FontEntry) : (s.setFont v).asm = s.asm := rfl
@[simp] theorem State.setFont_pos (v : List FontEntry) : (s.setFont v).pos = s.pos := rfl
@[simp] theorem State.setFont_presents (v : List FontEntry) : (s.setFont v).presents = s.presents := rfl
@[simp] theorem State.setFont_raced (v : List FontEntry) : (s.setFont v).raced = s.raced := rfl
@[simp] theorem State.setFont_resets (v : List FontEntry) : (s.setFont v).resets = s.resets := rfl
@[simp] theorem State.setFont_draws (v : List FontEntry) : (s.setFont v).draws = s.draws := rfl

@[simp] theorem State.setNs_cfg (v : NextSprite) : (s.setNs v).cfg = s.cfg := rfl
@[simp] theorem State.setNs_drawEn (v : NextSprite) : (s.setNs v).drawEn = s.drawEn := rfl
@[simp] theorem State.setNs_sc (v : NextSprite) : (s.setNs v).sc = s.sc := rfl
@[simp] theorem State.setNs_camX (v : NextSprite) : (s.setNs v).camX = s.camX := rfl
@[simp] theorem State.setNs_camY (v : NextSprite) : (s.setNs v).camY = s.camY := rfl
@[simp] theorem State.setNs_tmode (v : NextSprite) : (s.setNs v).tmode = s.tmode := rfl
@[simp] theorem State.setNs_result (v : NextSprite) : (s.setNs v).result = s.result := rfl
@[simp] theorem State.setNs_aux (v : NextSprite) : (s.setNs v).aux = s.aux := rfl
@[simp] theorem State.setNs_errIll (v : NextSprite) : (s.setNs v).errIll = s.errIll := rfl
@[simp] theorem State.setNs_logNf (v : NextSprite) : (s.setNs v).logNf = s.logNf := rfl
@[simp] theorem State.setNs_palOvf (v : NextSprite) : (s.setNs v).palOvf = s.palOvf := rfl
@[simp] theorem State.setNs_pal (v : NextSprite) : (s.setNs v).pal = s.pal := rfl
@[simp] theorem State.setNs_lut (v : NextSprite) : (s.setNs v).lut = s.lut := rfl
@[simp] theorem State.setNs_fb (v : NextSprite) : (s.setNs v).fb = s.fb := rfl
@[simp] theorem State.setNs_texmem (v : NextSprite) : (s.setNs v).texmem = s.texmem := rfl
@[simp] theorem State.setNs_tm (v : NextSprite) : (s.setNs v).tm = s.tm := rfl
@[simp] theorem State.setNs_font (v : NextSprite) : (s.setNs v).font = s.font := rfl
@[simp] theorem State.setNs_ns (v : NextSprite) : (s.setNs v).ns = v := rfl
@[simp] theorem State.setNs_nt (v : NextSprite) : (s.setNs v).nt = s.nt := rfl
@[simp] theorem State.setNs_grid (v : NextSprite) : (s.setNs v).grid = s.grid := rfl
@[simp] theorem State.setNs_fifo (v : NextSprite) : (s.setNs v).fifo = s.fifo := rfl
@[simp] theorem State.setNs_asm (v : NextSprite) : (s.setNs v).asm = s.asm := rfl
@[simp] theorem State.setNs_pos (v : NextSprite) : (s.setNs v).pos = s.pos := rfl
@[simp] theorem State.setNs_presents (v : NextSprite) : (s.setNs v).presents = s.presents := rfl
@[simp] theorem State.setNs_raced (v : NextSprite) : (s.setNs v).raced = s.raced := rfl
@[simp] theorem State.setNs_resets (v : NextSprite) : (s.setNs v).resets = s.resets := rfl
@[simp] theorem State.setNs_draws (v : NextSprite) : (s.setNs v).draws = s.draws := rfl

@[simp] theorem State.setNt_cfg (v : NextText) : (s.setNt v).cfg = s.cfg := rfl
@[simp] theorem State.setNt_drawEn (v : NextText) : (s.setNt v).drawEn = s.drawEn := rfl
@[simp] theorem State.setNt_sc (v : NextText) : (s.setNt v).sc = s.sc := rfl
@[simp] theorem State.setNt_camX (v : NextText) : (s.setNt v).camX = s.camX := rfl
@[simp] theorem State.setNt_camY (v : NextText) : (s.setNt v).camY = s.camY := rfl
@[simp] theorem State.setNt_tmode (v : NextText) : (s.setNt v).tmode = s.tmode := rfl
@[simp] theorem State.setNt_result (v : NextText) : (s.setNt v).result = s.result := rfl
@[simp] theorem State.setNt_aux (v : NextText) : (s.setNt v).aux = s.aux := rfl
@[simp] theorem State.setNt_errIll (v : NextText) : (s.setNt v).errIll = s.errIll := rfl
@[simp] theorem State.setNt_logNf (v : NextText) : (s.setNt v).logNf = s.logNf := rfl
@[simp] theorem State.setNt_palOvf (v : NextText) : (s.setNt v).palOvf = s.palOvf := rfl
@[simp] theorem State.setNt_pal (v : NextText) : (s.setNt v).pal = s.pal := rfl
@[simp] theorem State.setNt_lut (v : NextText) : (s.setNt v).lut = s.lut := rfl
@[simp] theorem State.setNt_fb (v : NextText) : (s.setNt v).fb = s.fb := rfl
@[simp] theorem State.setNt_texmem (v : NextText) : (s.setNt v).texmem = s.texmem := rfl
@[simp] theorem State.setNt_tm (v : NextText) : (s.setNt v).tm = s.tm := rfl
@[simp] theorem State.setNt_font (v : NextText) : (s.setNt v).font = s.font := rfl
@[simp] theorem State.setNt_ns (v : NextText) : (s.setNt v).ns = s.ns := rfl
@[simp] theorem State.setNt_nt (v : NextText) : (s.setNt v).nt = v := rfl
@[simp] theorem State.setNt_grid (v : NextText) : (s.setNt v).grid = s.grid := rfl
@[simp] theorem State.setNt_fifo (v : NextText) : (s.setNt v).fifo = s.fifo := rfl
@[simp] theorem State.setNt_asm (v : NextText) : (s.setNt v).asm = s.asm := rfl
@[simp] theorem State.setNt_pos (v : NextText) : (s.setNt v).pos = s.pos := rfl
@[simp] theorem State.setNt_presents (v : NextText) : (s.setNt v).presents = s.presents := rfl
@[simp] theorem State.setNt_raced (v : NextText) : (s.setNt v).raced = s.raced := rfl
@[simp] theorem State.setNt_resets (v : NextText) : (s.setNt v).resets = s.resets := rfl
@[simp] theorem State.setNt_draws (v : NextText) : (s.setNt v).draws = s.draws := rfl

@[simp] theorem State.setGrid_cfg (v : Grid) : (s.setGrid v).cfg = s.cfg := rfl
@[simp] theorem State.setGrid_drawEn (v : Grid) : (s.setGrid v).drawEn = s.drawEn := rfl
@[simp] theorem State.setGrid_sc (v : Grid) : (s.setGrid v).sc = s.sc := rfl
@[simp] theorem State.setGrid_camX (v : Grid) : (s.setGrid v).camX = s.camX := rfl
@[simp] theorem State.setGrid_camY (v : Grid) : (s.setGrid v).camY = s.camY := rfl
@[simp] theorem State.setGrid_tmode (v : Grid) : (s.setGrid v).tmode = s.tmode := rfl
@[simp] theorem State.setGrid_result (v : Grid) : (s.setGrid v).result = s.result := rfl
@[simp] theorem State.setGrid_aux (v : Grid) : (s.setGrid v).aux = s.aux := rfl
@[simp] theorem State.setGrid_errIll (v : Grid) : (s.setGrid v).errIll = s.errIll := rfl
@[simp] theorem State.setGrid_logNf (v : Grid) : (s.setGrid v).logNf = s.logNf := rfl
@[simp] theorem State.setGrid_palOvf (v : Grid) : (s.setGrid v).palOvf = s.palOvf := rfl
@[simp] theorem State.setGrid_pal (v : Grid) : (s.setGrid v).pal = s.pal := rfl
@[simp] theorem State.setGrid_lut (v : Grid) : (s.setGrid v).lut = s.lut := rfl
@[simp] theorem State.setGrid_fb (v : Grid) : (s.setGrid v).fb = s.fb := rfl
@[simp] theorem State.setGrid_texmem (v : Grid) : (s.setGrid v).texmem = s.texmem := rfl
@[simp] theorem State.setGrid_tm (v : Grid) : (s.setGrid v).tm = s.tm := rfl
@[simp] theorem State.setGrid_font (v : Grid) : (s.setGrid v).font = s.font := rfl
@[simp] theorem State.setGrid_ns (v : Grid) : (s.setGrid v).ns = s.ns := rfl
@[simp] theorem State.setGrid_nt (v : Grid) : (s.setGrid v).nt = s.nt := rfl
@[simp] theorem State.setGrid_grid (v : Grid) : (s.setGrid v).grid = v := rfl
@[simp] theorem State.setGrid_fifo (v : Grid) : (s.setGrid v).fifo = s.fifo := rfl
@[simp] theorem State.setGrid_asm (v : Grid) : (s.setGrid v).asm = s.asm := rfl
@[simp] theorem State.setGrid_pos (v : Grid) : (s.setGrid v).pos = s.pos := rfl
@[simp] theorem State.setGrid_presents (v : Grid) : (s.setGrid v).presents = s.presents := rfl
@[simp] theorem State.setGrid_raced (v : Grid) : (s.setGrid v).raced = s.raced := rfl
@[simp] theorem State.setGrid_resets (v : Grid) : (s.setGrid v).resets = s.resets := rfl
@[simp] theorem State.setGrid_draws (v : Grid) : (s.setGrid v).draws = s.draws := rfl

@[simp] theorem State.addPresent_cfg (v : List Word) : (s.addPresent v).cfg = s.cfg := rfl
@[simp] theorem State.addPresent_drawEn (v : List Word) : (s.addPresent v).drawEn = s.drawEn := rfl
@[simp] theorem State.addPresent_sc (v : List Word) : (s.addPresent v).sc = s.sc := rfl
@[simp] theorem State.addPresent_camX (v : List Word) : (s.addPresent v).camX = s.camX := rfl
@[simp] theorem State.addPresent_camY (v : List Word) : (s.addPresent v).camY = s.camY := rfl
@[simp] theorem State.addPresent_tmode (v : List Word) : (s.addPresent v).tmode = s.tmode := rfl
@[simp] theorem State.addPresent_result (v : List Word) : (s.addPresent v).result = s.result := rfl
@[simp] theorem State.addPresent_aux (v : List Word) : (s.addPresent v).aux = s.aux := rfl
@[simp] theorem State.addPresent_errIll (v : List Word) : (s.addPresent v).errIll = s.errIll := rfl
@[simp] theorem State.addPresent_logNf (v : List Word) : (s.addPresent v).logNf = s.logNf := rfl
@[simp] theorem State.addPresent_palOvf (v : List Word) : (s.addPresent v).palOvf = s.palOvf := rfl
@[simp] theorem State.addPresent_pal (v : List Word) : (s.addPresent v).pal = s.pal := rfl
@[simp] theorem State.addPresent_lut (v : List Word) : (s.addPresent v).lut = s.lut := rfl
@[simp] theorem State.addPresent_fb (v : List Word) : (s.addPresent v).fb = s.fb := rfl
@[simp] theorem State.addPresent_texmem (v : List Word) : (s.addPresent v).texmem = s.texmem := rfl
@[simp] theorem State.addPresent_tm (v : List Word) : (s.addPresent v).tm = s.tm := rfl
@[simp] theorem State.addPresent_font (v : List Word) : (s.addPresent v).font = s.font := rfl
@[simp] theorem State.addPresent_ns (v : List Word) : (s.addPresent v).ns = s.ns := rfl
@[simp] theorem State.addPresent_nt (v : List Word) : (s.addPresent v).nt = s.nt := rfl
@[simp] theorem State.addPresent_grid (v : List Word) : (s.addPresent v).grid = s.grid := rfl
@[simp] theorem State.addPresent_fifo (v : List Word) : (s.addPresent v).fifo = s.fifo := rfl
@[simp] theorem State.addPresent_asm (v : List Word) : (s.addPresent v).asm = s.asm := rfl
@[simp] theorem State.addPresent_pos (v : List Word) : (s.addPresent v).pos = s.pos := rfl
@[simp] theorem State.addPresent_presents (v : List Word) : (s.addPresent v).presents = s.presents ++ [v] := rfl
@[simp] theorem State.addPresent_raced (v : List Word) : (s.addPresent v).raced = s.raced := rfl
@[simp] theorem State.addPresent_resets (v : List Word) : (s.addPresent v).resets = s.resets := rfl
@[simp] theorem State.addPresent_draws (v : List Word) : (s.addPresent v).draws = s.draws := rfl

@[simp] theorem State.setDraws_cfg (v : Nat) : (s.setDraws v).cfg = s.cfg := rfl
@[simp] theorem State.setDraws_drawEn (v : Nat) : (s.setDraws v).drawEn = s.drawEn := rfl
@[simp] theorem State.setDraws_sc (v : Nat) : (s.setDraws v).sc = s.sc := rfl
@[simp] theorem State.setDraws_camX (v : Nat) : (s.setDraws v).camX = s.camX := rfl
@[simp] theorem State.setDraws_camY (v : Nat) : (s.setDraws v).camY = s.camY := rfl
@[simp] theorem State.setDraws_tmode (v : Nat) : (s.setDraws v).tmode = s.tmode := rfl
@[simp] theorem State.setDraws_result (v : Nat) : (s.setDraws v).result = s.result := rfl
@[simp] theorem State.setDraws_aux (v : Nat) : (s.setDraws v).aux = s.aux := rfl
@[simp] theorem State.setDraws_errIll (v : Nat) : (s.setDraws v).errIll = s.errIll := rfl
@[simp] theorem State.setDraws_logNf (v : Nat) : (s.setDraws v).logNf = s.logNf := rfl
@[simp] theorem State.setDraws_palOvf (v : Nat) : (s.setDraws v).palOvf = s.palOvf := rfl
@[simp] theorem State.setDraws_pal (v : Nat) : (s.setDraws v).pal = s.pal := rfl
@[simp] theorem State.setDraws_lut (v : Nat) : (s.setDraws v).lut = s.lut := rfl
@[simp] theorem State.setDraws_fb (v : Nat) : (s.setDraws v).fb = s.fb := rfl
@[simp] theorem State.setDraws_texmem (v : Nat) : (s.setDraws v).texmem = s.texmem := rfl
@[simp] theorem State.setDraws_tm (v : Nat) : (s.setDraws v).tm = s.tm := rfl
@[simp] theorem State.setDraws_font (v : Nat) : (s.setDraws v).font = s.font := rfl
@[simp] theorem State.setDraws_ns (v : Nat) : (s.setDraws v).ns = s.ns := rfl
@[simp] theorem State.setDraws_nt (v : Nat) : (s.setDraws v).nt = s.nt := rfl
@[simp] theorem State.setDraws_grid (v : Nat) : (s.setDraws v).grid = s.grid := rfl
@[simp] theorem State.setDraws_fifo (v : Nat) : (s.setDraws v).fifo = s.fifo := rfl
@[simp] theorem State.setDraws_asm (v : Nat) : (s.setDraws v).asm = s.asm := rfl
@[simp] theorem State.setDraws_pos (v : Nat) : (s.setDraws v).pos = s.pos := rfl
@[simp] theorem State.setDraws_presents (v : Nat) : (s.setDraws v).presents = s.presents := rfl
@[simp] theorem State.setDraws_raced (v : Nat) : (s.setDraws v).raced = s.raced := rfl
@[simp] theorem State.setDraws_resets (v : Nat) : (s.setDraws v).resets = s.resets := rfl
@[simp] theorem State.setDraws_draws (v : Nat) : (s.setDraws v).draws = v := rfl

@[simp] theorem State.advance_cfg : (s.advance).cfg = s.cfg := rfl
@[simp] theorem State.advance_drawEn : (s.advance).drawEn = s.drawEn := rfl
@[simp] theorem State.advance_sc : (s.advance).sc = s.sc := rfl
@[simp] theorem State.advance_camX : (s.advance).camX = s.camX := rfl
@[simp] theorem State.advance_camY : (s.advance).camY = s.camY := rfl
@[simp] theorem State.advance_tmode : (s.advance).tmode = s.tmode := rfl
@[simp] theorem State.advance_result : (s.advance).result = s.result := rfl
@[simp] theorem State.advance_aux : (s.advance).aux = s.aux := rfl
@[simp] theorem State.advance_errIll : (s.advance).errIll = s.errIll := rfl
@[simp] theorem State.advance_logNf : (s.advance).logNf = s.logNf := rfl
@[simp] theorem State.advance_palOvf : (s.advance).palOvf = s.palOvf := rfl
@[simp] theorem State.advance_pal : (s.advance).pal = s.pal := rfl
@[simp] theorem State.advance_lut : (s.advance).lut = s.lut := rfl
@[simp] theorem State.advance_fb : (s.advance).fb = s.fb := rfl
@[simp] theorem State.advance_texmem : (s.advance).texmem = s.texmem := rfl
@[simp] theorem State.advance_tm : (s.advance).tm = s.tm := rfl
@[simp] theorem State.advance_font : (s.advance).font = s.font := rfl
@[simp] theorem State.advance_ns : (s.advance).ns = s.ns := rfl
@[simp] theorem State.advance_nt : (s.advance).nt = s.nt := rfl
@[simp] theorem State.advance_grid : (s.advance).grid = s.grid := rfl
@[simp] theorem State.advance_fifo : (s.advance).fifo = s.fifo := rfl
@[simp] theorem State.advance_asm : (s.advance).asm = s.asm := rfl
@[simp] theorem State.advance_pos : (s.advance).pos = s.pos := rfl
@[simp] theorem State.advance_presents : (s.advance).presents = s.presents := rfl
@[simp] theorem State.advance_raced : (s.advance).raced = s.raced := rfl
@[simp] theorem State.advance_resets : (s.advance).resets = s.resets := rfl
@[simp] theorem State.advance_draws : (s.advance).draws = s.draws + 1 := rfl

@[simp] theorem State.retire_cfg : (s.retire).cfg = s.cfg := rfl
@[simp] theorem State.retire_drawEn : (s.retire).drawEn = s.drawEn := rfl
@[simp] theorem State.retire_sc : (s.retire).sc = s.sc := rfl
@[simp] theorem State.retire_camX : (s.retire).camX = s.camX := rfl
@[simp] theorem State.retire_camY : (s.retire).camY = s.camY := rfl
@[simp] theorem State.retire_tmode : (s.retire).tmode = s.tmode := rfl
@[simp] theorem State.retire_result : (s.retire).result = s.result := rfl
@[simp] theorem State.retire_aux : (s.retire).aux = s.aux := rfl
@[simp] theorem State.retire_errIll : (s.retire).errIll = s.errIll := rfl
@[simp] theorem State.retire_logNf : (s.retire).logNf = s.logNf := rfl
@[simp] theorem State.retire_palOvf : (s.retire).palOvf = s.palOvf := rfl
@[simp] theorem State.retire_pal : (s.retire).pal = s.pal := rfl
@[simp] theorem State.retire_lut : (s.retire).lut = s.lut := rfl
@[simp] theorem State.retire_fb : (s.retire).fb = s.fb := rfl
@[simp] theorem State.retire_texmem : (s.retire).texmem = s.texmem := rfl
@[simp] theorem State.retire_tm : (s.retire).tm = s.tm := rfl
@[simp] theorem State.retire_font : (s.retire).font = s.font := rfl
@[simp] theorem State.retire_ns : (s.retire).ns = s.ns := rfl
@[simp] theorem State.retire_nt : (s.retire).nt = s.nt := rfl
@[simp] theorem State.retire_grid : (s.retire).grid = s.grid := rfl
@[simp] theorem State.retire_fifo : (s.retire).fifo = s.fifo := rfl
@[simp] theorem State.retire_asm : (s.retire).asm = [] := rfl
@[simp] theorem State.retire_pos : (s.retire).pos = s.pos := rfl
@[simp] theorem State.retire_presents : (s.retire).presents = s.presents := rfl
@[simp] theorem State.retire_raced : (s.retire).raced = s.raced.filter fun r => s.pos - s.asm.length < r.limit := rfl
@[simp] theorem State.retire_resets : (s.retire).resets = s.resets := rfl
@[simp] theorem State.retire_draws : (s.retire).draws = s.draws := rfl

@[simp] theorem logNotFound_cfg : (logNotFound s).cfg = s.cfg := rfl
@[simp] theorem logNotFound_drawEn : (logNotFound s).drawEn = s.drawEn := rfl
@[simp] theorem logNotFound_sc : (logNotFound s).sc = s.sc := rfl
@[simp] theorem logNotFound_camX : (logNotFound s).camX = s.camX := rfl
@[simp] theorem logNotFound_camY : (logNotFound s).camY = s.camY := rfl
@[simp] theorem logNotFound_tmode : (logNotFound s).tmode = s.tmode := rfl
@[simp] theorem logNotFound_result : (logNotFound s).result = s.result := rfl
@[simp] theorem logNotFound_aux : (logNotFound s).aux = s.aux := rfl
@[simp] theorem logNotFound_errIll : (logNotFound s).errIll = s.errIll := rfl
@[simp] theorem logNotFound_logNf : (logNotFound s).logNf = true := rfl
@[simp] theorem logNotFound_palOvf : (logNotFound s).palOvf = s.palOvf := rfl
@[simp] theorem logNotFound_pal : (logNotFound s).pal = s.pal := rfl
@[simp] theorem logNotFound_lut : (logNotFound s).lut = s.lut := rfl
@[simp] theorem logNotFound_fb : (logNotFound s).fb = s.fb := rfl
@[simp] theorem logNotFound_texmem : (logNotFound s).texmem = s.texmem := rfl
@[simp] theorem logNotFound_tm : (logNotFound s).tm = s.tm := rfl
@[simp] theorem logNotFound_font : (logNotFound s).font = s.font := rfl
@[simp] theorem logNotFound_ns : (logNotFound s).ns = s.ns := rfl
@[simp] theorem logNotFound_nt : (logNotFound s).nt = s.nt := rfl
@[simp] theorem logNotFound_grid : (logNotFound s).grid = s.grid := rfl
@[simp] theorem logNotFound_fifo : (logNotFound s).fifo = s.fifo := rfl
@[simp] theorem logNotFound_asm : (logNotFound s).asm = s.asm := rfl
@[simp] theorem logNotFound_pos : (logNotFound s).pos = s.pos := rfl
@[simp] theorem logNotFound_presents : (logNotFound s).presents = s.presents := rfl
@[simp] theorem logNotFound_raced : (logNotFound s).raced = s.raced := rfl
@[simp] theorem logNotFound_resets : (logNotFound s).resets = s.resets := rfl
@[simp] theorem logNotFound_draws : (logNotFound s).draws = s.draws := rfl

@[simp] theorem logPalOverflow_cfg : (logPalOverflow s).cfg = s.cfg := rfl
@[simp] theorem logPalOverflow_drawEn : (logPalOverflow s).drawEn = s.drawEn := rfl
@[simp] theorem logPalOverflow_sc : (logPalOverflow s).sc = s.sc := rfl
@[simp] theorem logPalOverflow_camX : (logPalOverflow s).camX = s.camX := rfl
@[simp] theorem logPalOverflow_camY : (logPalOverflow s).camY = s.camY := rfl
@[simp] theorem logPalOverflow_tmode : (logPalOverflow s).tmode = s.tmode := rfl
@[simp] theorem logPalOverflow_result : (logPalOverflow s).result = s.result := rfl
@[simp] theorem logPalOverflow_aux : (logPalOverflow s).aux = s.aux := rfl
@[simp] theorem logPalOverflow_errIll : (logPalOverflow s).errIll = s.errIll := rfl
@[simp] theorem logPalOverflow_logNf : (logPalOverflow s).logNf = s.logNf := rfl
@[simp] theorem logPalOverflow_palOvf : (logPalOverflow s).palOvf = true := rfl
@[simp] theorem logPalOverflow_pal : (logPalOverflow s).pal = s.pal := rfl
@[simp] theorem logPalOverflow_lut : (logPalOverflow s).lut = s.lut := rfl
@[simp] theorem logPalOverflow_fb : (logPalOverflow s).fb = s.fb := rfl
@[simp] theorem logPalOverflow_texmem : (logPalOverflow s).texmem = s.texmem := rfl
@[simp] theorem logPalOverflow_tm : (logPalOverflow s).tm = s.tm := rfl
@[simp] theorem logPalOverflow_font : (logPalOverflow s).font = s.font := rfl
@[simp] theorem logPalOverflow_ns : (logPalOverflow s).ns = s.ns := rfl
@[simp] theorem logPalOverflow_nt : (logPalOverflow s).nt = s.nt := rfl
@[simp] theorem logPalOverflow_grid : (logPalOverflow s).grid = s.grid := rfl
@[simp] theorem logPalOverflow_fifo : (logPalOverflow s).fifo = s.fifo := rfl
@[simp] theorem logPalOverflow_asm : (logPalOverflow s).asm = s.asm := rfl
@[simp] theorem logPalOverflow_pos : (logPalOverflow s).pos = s.pos := rfl
@[simp] theorem logPalOverflow_presents : (logPalOverflow s).presents = s.presents := rfl
@[simp] theorem logPalOverflow_raced : (logPalOverflow s).raced = s.raced := rfl
@[simp] theorem logPalOverflow_resets : (logPalOverflow s).resets = s.resets := rfl
@[simp] theorem logPalOverflow_draws : (logPalOverflow s).draws = s.draws := rfl

@[simp] theorem discardIllegal_cfg : (discardIllegal s).cfg = s.cfg := rfl
@[simp] theorem discardIllegal_drawEn : (discardIllegal s).drawEn = s.drawEn := rfl
@[simp] theorem discardIllegal_sc : (discardIllegal s).sc = s.sc := rfl
@[simp] theorem discardIllegal_camX : (discardIllegal s).camX = s.camX := rfl
@[simp] theorem discardIllegal_camY : (discardIllegal s).camY = s.camY := rfl
@[simp] theorem discardIllegal_tmode : (discardIllegal s).tmode = s.tmode := rfl
@[simp] theorem discardIllegal_result : (discardIllegal s).result = s.result := rfl
@[simp] theorem discardIllegal_aux : (discardIllegal s).aux = s.aux := rfl
@[simp] theorem discardIllegal_errIll : (discardIllegal s).errIll = true := rfl
@[simp] theorem discardIllegal_logNf : (discardIllegal s).logNf = s.logNf := rfl
@[simp] theorem discardIllegal_palOvf : (discardIllegal s).palOvf = s.palOvf := rfl
@[simp] theorem discardIllegal_pal : (discardIllegal s).pal = s.pal := rfl
@[simp] theorem discardIllegal_lut : (discardIllegal s).lut = s.lut := rfl
@[simp] theorem discardIllegal_fb : (discardIllegal s).fb = s.fb := rfl
@[simp] theorem discardIllegal_texmem : (discardIllegal s).texmem = s.texmem := rfl
@[simp] theorem discardIllegal_tm : (discardIllegal s).tm = s.tm := rfl
@[simp] theorem discardIllegal_font : (discardIllegal s).font = s.font := rfl
@[simp] theorem discardIllegal_ns : (discardIllegal s).ns = s.ns := rfl
@[simp] theorem discardIllegal_nt : (discardIllegal s).nt = s.nt := rfl
@[simp] theorem discardIllegal_grid : (discardIllegal s).grid = s.grid := rfl
@[simp] theorem discardIllegal_fifo : (discardIllegal s).fifo = s.fifo := rfl
@[simp] theorem discardIllegal_asm : (discardIllegal s).asm = s.asm := rfl
@[simp] theorem discardIllegal_pos : (discardIllegal s).pos = s.pos := rfl
@[simp] theorem discardIllegal_presents : (discardIllegal s).presents = s.presents := rfl
@[simp] theorem discardIllegal_raced : (discardIllegal s).raced = s.raced := rfl
@[simp] theorem discardIllegal_resets : (discardIllegal s).resets = s.resets := rfl
@[simp] theorem discardIllegal_draws : (discardIllegal s).draws = s.draws := rfl

end Sys2Proof.Machine
end

