-- ==== Sys2Proof/Laws/Memory.lean ====
section
/-! SUPPORT. Texture memory as data: a read after a write, and the canonical form that every write keeps. -/

namespace Sys2Proof.Machine

variable {m : Memory} {a b : Nat} {v : Byte}

/-- A read after a write: the byte written at its address, what was there before anywhere else. -/
theorem Memory.read_write : Memory.read (Memory.write m a v) b = if b = a then some v else Memory.read m b := by
  induction m with
  | nil => rfl
  | cons c m ih =>
    by_cases hl : a < c.1
    · simp only [Memory.write, hl, if_true, Memory.read]
    · by_cases he : a = c.1
      · by_cases hb : b = a
        · subst hb; simp [Memory.write, he, Memory.read]
        · have hbc : b ≠ c.1 := he ▸ hb
          simp [Memory.write, he, Memory.read, hbc]
      · by_cases hb : b = a
        · subst hb; simp [Memory.write, hl, he, Memory.read, ih]
        · simp [Memory.write, hl, he, Memory.read, ih, hb]

/-- A write lists no address but the one written and those listed before. -/
theorem Memory.mem_write {c : Host.Cell} (h : c ∈ Memory.write m a v) : c.1 = a ∨ c ∈ m := by
  induction m with
  | nil => left; simp_all [Memory.write]
  | cons d m ih =>
    unfold Memory.write at h
    split at h
    · rcases List.mem_cons.mp h with rfl | h
      · exact .inl rfl
      · exact .inr h
    · split at h
      · rcases List.mem_cons.mp h with rfl | h
        · exact .inl rfl
        · exact .inr (List.mem_cons_of_mem _ h)
      · rcases List.mem_cons.mp h with rfl | h
        · exact .inr List.mem_cons_self
        · exact (ih h).imp_right (List.mem_cons_of_mem _)

/-- Every write keeps the canonical form. -/
theorem Memory.wf_write (h : Memory.wf m) : Memory.wf (Memory.write m a v) := by
  induction m with
  | nil => exact List.pairwise_singleton _ _
  | cons c m ih =>
    obtain ⟨hc, hm⟩ := List.pairwise_cons.mp h
    by_cases hl : a < c.1
    · simp only [Memory.write, hl, if_true]
      refine List.pairwise_cons.mpr ⟨fun d hd => ?_, h⟩
      rcases List.mem_cons.mp hd with rfl | hd
      · exact hl
      · exact hl.trans (hc d hd)
    · by_cases he : a = c.1
      · simp only [Memory.write, lt_irrefl, he, if_true, if_false]
        exact List.pairwise_cons.mpr ⟨hc, hm⟩
      · simp only [Memory.write, hl, he, if_false]
        refine List.pairwise_cons.mpr ⟨fun d hd => ?_, ih hm⟩
        rcases Memory.mem_write hd with e | hd
        · rw [e]; exact lt_of_le_of_ne (not_lt.mp hl) (Ne.symm he)
        · exact hc d hd

/-- Memory at reset lists nothing and is canonical. -/
theorem Memory.wf_nil : Memory.wf [] := List.Pairwise.nil

theorem State.reset_texmem_wf : Memory.wf State.reset.texmem := Memory.wf_nil

/-- Storing a byte keeps the canonical form. -/
theorem State.storeByte_wf {s : State} (h : Memory.wf s.texmem) : Memory.wf (s.storeByte a v).texmem := Memory.wf_write h

/-- Storing a byte: read back at its address, every other byte of texture memory as before. -/
theorem State.texByte_storeByte (s : State) : (s.storeByte a v).texByte b = if b = a then v else s.texByte b := by
  unfold State.texByte State.storeByte
  simp only [State.setTexmem_texmem, State.setTexmem_resets, Memory.read_write]
  split <;> rfl

end Sys2Proof.Machine
end

