-- ==== Sys2Proof/Laws/Ops.lean ====
section
/-! SUPPORT. One lemma per shared operation of `Machine/Ops.lean`: everything it can do. -/

namespace Sys2Proof.Machine

/-! ## Normal forms of repeated writes -/

@[simp] theorem State.setFb_setFb (s : State) (a b : List Byte) : (s.setFb a).setFb b = s.setFb b := rfl
@[simp] theorem State.setDraws_setDraws (s : State) (a b : Nat) : (s.setDraws a).setDraws b = s.setDraws b := rfl
@[simp] theorem State.setDraws_setFb (s : State) (a : Nat) (b : List Byte) : (s.setDraws a).setFb b = (s.setFb b).setDraws a := rfl
@[simp] theorem State.setFb_self (s : State) : s.setFb s.fb = s := rfl
@[simp] theorem State.setDraws_self (s : State) : s.setDraws s.draws = s := rfl

/-! ## Picture-only changes -/

theorem PictureOnly.refl (s : State) : PictureOnly s s := ⟨s.fb, s.draws, rfl, rfl⟩

theorem PictureOnly.trans {s t u : State} (h : PictureOnly s t) (g : PictureOnly t u) : PictureOnly s u := by
  obtain ⟨f, k, rfl, hf⟩ := h
  obtain ⟨f', k', rfl, hf'⟩ := g
  exact ⟨f', k', rfl, hf'.trans hf⟩

theorem PictureOnly.setDraws (s : State) (k : Nat) : PictureOnly s (s.setDraws k) := ⟨s.fb, k, rfl, rfl⟩

/-- A loop of picture-only changes is one. -/
theorem PictureOnly.foldl {α : Type} {f : State → α → State} (hf : ∀ s a, PictureOnly s (f s a)) (l : List α) (s : State) :
    PictureOnly s (l.foldl f s) := by
  induction l generalizing s with
  | nil => exact .refl s
  | cons a l ih => exact (hf s a).trans (ih _)

/-! ## Texture memory -/

/-- `TexRead8` changes at most the count of free values. -/
theorem texRead8_state (a : Nat) (s : State) : ∃ k, (texRead8 a s).2 = s.setDraws k := by
  unfold texRead8
  split
  · exact ⟨s.draws, rfl⟩
  · exact ⟨s.draws + 1, rfl⟩

/-- Without a race `TexRead8` gives the stored byte and changes nothing. -/
theorem texRead8_quiet {s : State} (h : s.raced = []) (a : Nat) : texRead8 a s = (s.texByte a, s) := by
  simp [texRead8, racesAt, h]

/-- `TexWrite8` stores some byte at its address and changes at most the count of free values beside. -/
theorem texWrite8_state (a : Nat) (v : Byte) (s : State) : ∃ b k, texWrite8 a v s = (s.storeByte a b).setDraws k := by
  unfold texWrite8
  split
  · exact ⟨v, s.draws, rfl⟩
  · exact ⟨_, s.draws + 1, rfl⟩

/-- Without a race `TexWrite8` stores its byte. -/
theorem texWrite8_quiet {s : State} (h : s.raced = []) (a : Nat) (v : Byte) : texWrite8 a v s = s.storeByte a v := by
  simp [texWrite8, racesAt, h]

/-! ## Texels and pixels -/

theorem texel_state (v : View) (tx ty : Nat) (s : State) : ∃ k, (texel v tx ty s).2 = s.setDraws k := by
  unfold texel
  split
  · exact ⟨s.draws, rfl⟩
  · dsimp only
    split
    · exact texRead8_state _ s
    · exact ⟨s.draws, rfl⟩

theorem plotIndex_picture (px py : Nat) (v : Byte) (s : State) : PictureOnly s (plotIndex px py v s) := by
  unfold plotIndex
  split
  · exact .refl s
  · exact ⟨s.fb.set (fbIndex s.cfg px py) v, s.draws, rfl, List.length_set⟩

theorem plot_picture (px py : Int) (v : Option Byte) (s : State) : PictureOnly s (plot px py v s) := by
  unfold plot
  split
  · split
    · exact plotIndex_picture _ _ _ s
    · split
      · exact PictureOnly.setDraws s _
      · exact (PictureOnly.setDraws s _).trans (plotIndex_picture _ _ _ _)
  · exact .refl s

theorem plotTexel_picture (v : View) (px py : Int) (tx ty : Nat) (s : State) : PictureOnly s (plotTexel v px py tx ty s) := by
  obtain ⟨k, hk⟩ := texel_state v tx ty s
  unfold plotTexel
  dsimp only
  rw [hk]
  exact (PictureOnly.setDraws s k).trans (plot_picture _ _ _ _)

theorem blit_picture (t : TexRef) (x0 y0 : Int) (s : State) : PictureOnly s (blit t x0 y0 s) := by
  cases t with
  | none => exact .refl s
  | some v => exact PictureOnly.foldl (fun s p => plotTexel_picture _ _ _ _ _ s) _ s

theorem spritePixel_picture (p : Placement) (v : View) (px py : Nat) (s : State) : PictureOnly s (spritePixel p v px py s) := by
  unfold spritePixel
  split
  · exact .refl s
  · exact plotTexel_picture _ _ _ _ _ s

theorem spriteRaster_picture (t : TexRef) (p : Placement) (s : State) : PictureOnly s (spriteRaster t p s) := by
  unfold spriteRaster
  split
  · exact .refl s
  · split
    · exact .refl s
    · exact PictureOnly.foldl (fun s q => spritePixel_picture _ _ _ _ s) _ s

theorem drawGrid_picture (s : State) : PictureOnly s (drawGrid s) :=
  PictureOnly.foldl (fun s _ => blit_picture _ _ _ s) _ s

theorem drawRaster_picture (r : Raster) (x y : Fix) (s : State) : PictureOnly s (drawRaster r x y s) :=
  PictureOnly.foldl (fun s _ => plot_picture _ _ _ s) _ s

theorem drawText_picture (x y : Fix) (t : Bytes) (s : State) : PictureOnly s (drawText x y t s) := by
  unfold drawText
  split
  · exact .refl s
  · exact drawRaster_picture _ _ _ s

theorem degenerateBox_spec (b : Nat) (s : State) :
    (degenerateBox b s).1 ≤ b ∧ (degenerateBox b s).2 = s.setDraws (s.draws + 1) :=
  ⟨Nat.lt_succ_iff.mp (Nat.mod_lt _ (Nat.succ_pos _)), rfl⟩

/-- A nine-slice performs at most its budget and changes only the picture. -/
theorem nineSlice_spec (t : TexRef) (x y w h : Int) (b : Nat) (s : State) :
    (nineSlice t x y w h b s).1 ≤ b ∧ PictureOnly s (nineSlice t x y w h b s).2 := by
  have hd : (degenerateBox b s).1 ≤ b ∧ PictureOnly s (degenerateBox b s).2 :=
    ⟨(degenerateBox_spec b s).1, (degenerateBox_spec b s).2 ▸ PictureOnly.setDraws s _⟩
  cases t with
  | none => exact hd
  | some v =>
    unfold nineSlice
    dsimp only
    split
    · exact hd
    · exact ⟨by simp, PictureOnly.foldl (fun s e => blit_picture _ _ _ s) _ s⟩

/-! ## The palette -/

/-- The three outcomes of `PalPush` (R111). -/
theorem palPush_cases (c : Word) (s : State) :
    (∃ k, palIndex c s = some k ∧ palPush c s = (k, s)) ∨
    (palIndex c s = none ∧ s.pal.length < s.cfg.palCap ∧ palPush c s = (s.pal.length, s.setPal (s.pal ++ [c]))) ∨
    (palIndex c s = none ∧ s.cfg.palCap ≤ s.pal.length ∧ palPush c s = (0, logPalOverflow s)) := by
  unfold palPush
  cases h : palIndex c s with
  | some k => exact .inl ⟨k, rfl, rfl⟩
  | none =>
    by_cases hl : s.pal.length < s.cfg.palCap
    · exact .inr (.inl ⟨rfl, hl, by simp [hl]⟩)
    · exact .inr (.inr ⟨rfl, not_lt.mp hl, by simp [hl]⟩)

/-- `PalIndex` finds the colour at the index it gives, and nowhere below it (R115). -/
theorem palIndex_some {c : Word} {s : State} {k : Nat} (h : palIndex c s = some k) :
    s.pal[k]? = some c ∧ ∀ j < k, s.pal[j]? ≠ some c := by
  obtain ⟨hk, hc, hj⟩ := List.findIdx?_eq_some_iff_getElem.mp h
  refine ⟨by rw [List.getElem?_eq_getElem hk]; simpa using hc, fun j hjk e => ?_⟩
  have hjl : j < s.pal.length := hjk.trans hk
  rw [List.getElem?_eq_getElem hjl] at e
  exact hj j hjk (by simpa using e)

theorem palIndex_none {c : Word} {s : State} (h : palIndex c s = none) : c ∉ s.pal := by
  intro hm
  have := List.findIdx?_eq_none_iff.mp h c hm
  simp at this

/-- What `PalPush` keeps and adds: the palette grows at its end by at most the colour, nothing else changes but the overflow
bit. -/
theorem palPush_state (c : Word) (s : State) :
    ∃ l o, (palPush c s).2 = { s with pal := s.pal ++ l, palOvf := o } ∧ (s.palOvf = true → o = true) ∧
      (l = [] ∨ (l = [c] ∧ c ∉ s.pal ∧ s.pal.length < s.cfg.palCap)) := by
  rcases palPush_cases c s with ⟨k, _, e⟩ | ⟨hn, hl, e⟩ | ⟨_, _, e⟩
  · exact ⟨[], s.palOvf, by rw [e]; simp, id, .inl rfl⟩
  · exact ⟨[c], s.palOvf, by rw [e]; rfl, id, .inr ⟨rfl, palIndex_none hn, hl⟩⟩
  · exact ⟨[], true, by rw [e]; simp [logPalOverflow], fun _ => rfl, .inl rfl⟩

/-! ## Tilemaps and the grid -/

/-- `GetTile` changes at most the not-found bit (R146). -/
theorem getTile_state (k i j : Int) (w h : Fix) (cs : Nat) (s : State) :
    (getTile k i j w h cs s).2 = s ∨ (getTile k i j w h cs s).2 = logNotFound s := by
  unfold getTile
  split
  · exact .inr rfl
  · split
    · exact .inl rfl
    · exact .inr rfl

/-- `GridPut` changes at most one cell (R164). -/
theorem gridPut_state (gx gy : Int) (v : TexRef) (s : State) :
    ∃ cells, gridPut gx gy v s = s.setGrid { s.grid with cells := cells } ∧ cells.length = s.grid.cells.length ∧
      ∀ c ∈ cells, c ∈ s.grid.cells ∨ c = v := by
  unfold gridPut
  dsimp only
  split
  · exact ⟨_, rfl, by simp, fun c hc => List.mem_or_eq_of_mem_set hc⟩
  · exact ⟨s.grid.cells, rfl, rfl, fun c hc => .inl hc⟩

/-! ## The command stream -/

/-- Consuming a word moves it from the FIFO to the assembly state, or changes nothing when there is none (R40). -/
theorem consumeWord_cases (s : State) :
    (s.fifo = [] ∧ consumeWord s = s) ∨
    ∃ w rest, s.fifo = w :: rest ∧ consumeWord s = { s with fifo := rest, asm := s.asm ++ [w], pos := s.pos + 1 } := by
  cases h : s.fifo with
  | nil => exact .inl ⟨rfl, by simp [consumeWord, h]⟩
  | cons w rest => exact .inr ⟨w, rest, rfl, by simp [consumeWord, h]⟩

end Sys2Proof.Machine
end

