-- ==== Sys2Proof/Laws/Picture.lean ====
section
/-! SUPPORT. What the pixel operations leave in each pixel, where no host write races and the texels lie inside their image. -/

namespace Sys2Proof.Machine

/-! ## Loop orders -/

theorem mem_rowMajor {w h : Nat} {p : Nat × Nat} : p ∈ rowMajor w h ↔ p.1 < w ∧ p.2 < h := by
  obtain ⟨x, y⟩ := p
  simp [rowMajor, and_comm]

theorem mem_columnMajor {w h : Nat} {p : Nat × Nat} : p ∈ columnMajor w h ↔ p.1 < w ∧ p.2 < h := by
  obtain ⟨x, y⟩ := p
  simp [columnMajor]

theorem nodup_rowMajor (w h : Nat) : (rowMajor w h).Nodup := by
  refine List.nodup_flatMap.mpr ⟨fun y _ => List.nodup_range.map fun a b e => (Prod.mk.inj e).1, ?_⟩
  refine List.nodup_range.imp fun {a b} hab p hp hq => ?_
  obtain ⟨_, _, rfl⟩ := List.mem_map.mp hp
  obtain ⟨_, _, e⟩ := List.mem_map.mp hq
  exact hab (Prod.mk.inj e).2.symm

theorem nodup_columnMajor (w h : Nat) : (columnMajor w h).Nodup := by
  refine List.nodup_flatMap.mpr ⟨fun y _ => List.nodup_range.map fun a b e => (Prod.mk.inj e).2, ?_⟩
  refine List.nodup_range.imp fun {a b} hab p hp hq => ?_
  obtain ⟨_, _, rfl⟩ := List.mem_map.mp hp
  obtain ⟨_, _, e⟩ := List.mem_map.mp hq
  exact hab (Prod.mk.inj e).1.symm

/-! ## One pixel -/

/-- The place of a pixel determines it. -/
theorem fbIndex_inj {c : Config} {px py qx qy : Nat} (hp : px < c.swidth) (hq : qx < c.swidth) :
    fbIndex c px py = fbIndex c qx qy ↔ px = qx ∧ py = qy := by
  constructor
  · intro h
    unfold fbIndex at h
    have hy : py = qy := by
      rcases Nat.lt_trichotomy py qy with l | l | l
      · have := Nat.mul_le_mul_right c.swidth (Nat.succ_le_of_lt l); simp only [Nat.succ_mul] at this; omega
      · exact l
      · have := Nat.mul_le_mul_right c.swidth (Nat.succ_le_of_lt l); simp only [Nat.succ_mul] at this; omega
    subst hy
    exact ⟨by omega, rfl⟩
  · rintro ⟨rfl, rfl⟩; rfl

theorem fbIndex_lt {c : Config} {px py : Nat} (hp : px < c.swidth) (hq : py < c.sheight) : fbIndex c px py < c.swidth * c.sheight := by
  unfold fbIndex
  have := Nat.mul_le_mul_right c.swidth (Nat.succ_le_of_lt hq)
  simp only [Nat.succ_mul] at this
  rw [Nat.mul_comm c.swidth]
  omega

/-- What `Plot` of an index leaves in a pixel of the screen (R70, R72). -/
theorem plot_pixel {s : State} (hf : s.fb.length = s.cfg.swidth * s.cfg.sheight) (px py : Int) (b : Byte) {qx qy : Nat}
    (hx : qx < s.cfg.swidth) (hy : qy < s.cfg.sheight) :
    pixelAt (plot px py (some b) s) qx qy =
      if px = qx ∧ py = qy then (if s.cfg.compose = .key0 ∧ b = 0 then pixelAt s qx qy else b) else pixelAt s qx qy := by
  unfold plot
  split
  · rename_i hs
    obtain ⟨h0, h1, h2, h3⟩ := hs
    lift px to Nat using h0
    lift py to Nat using h2
    simp only [Int.toNat_natCast, Nat.cast_inj] at *
    unfold plotIndex
    split
    · simp
    · have hw : px < s.cfg.swidth := by exact_mod_cast h1
      have hl : fbIndex s.cfg qx qy < s.fb.length := hf ▸ fbIndex_lt hx hy
      unfold pixelAt
      simp only [State.setFb_fb, State.setFb_cfg, List.getD_eq_getElem?_getD, List.getElem?_set, fbIndex_inj hw hx]
      by_cases e : px = qx ∧ py = qy
      · obtain ⟨rfl, rfl⟩ := e; simp [hl]
      · simp [e]
  · rename_i hs
    have : ¬ (px = qx ∧ py = qy) := by
      rintro ⟨rfl, rfl⟩
      exact hs ⟨by omega, by exact_mod_cast hx, by omega, by exact_mod_cast hy⟩
    simp [this]

/-- `Plot` of an index changes the framebuffer's contents alone. -/
theorem plot_fb (px py : Int) (b : Byte) (s : State) :
    ∃ fb, plot px py (some b) s = s.setFb fb ∧ fb.length = s.fb.length := by
  unfold plot
  split
  · dsimp only
    unfold plotIndex
    split
    · exact ⟨s.fb, rfl, rfl⟩
    · exact ⟨_, rfl, List.length_set⟩
  · exact ⟨s.fb, rfl, rfl⟩

/-- A texel inside its image, with no race: its blue byte, and no change (R68). -/
theorem texel_inside {s : State} (hr : s.raced = []) {v : View} {e : TmEntry} (he : s.tm[v.img]? = some e) {tx ty : Nat}
    (h : 0 ≤ v.vx + tx ∧ v.vx + tx < e.w ∧ 0 ≤ v.vy + ty ∧ v.vy + ty < e.h) :
    texel v tx ty s = (some (s.texByte (pix e.base e.w (v.vx + tx).toNat (v.vy + ty).toNat + 2)), s) := by
  simp [texel, he, h, texRead8_quiet hr]

/-! ## Loops of pixels -/

/-- What one act (a pixel and an index, or nothing) leaves in pixel `(qx, qy)` that held `old` (R72). -/
def actOn (c : Config) (qx qy : Nat) (old : Byte) : Option (Int × Int × Byte) → Byte
  | none => old
  | some (px, py, b) => if px = qx ∧ py = qy then (if c.compose = .key0 ∧ b = 0 then old else b) else old

/-- A loop whose body plots a known index at a known pixel, or does nothing: the framebuffer alone changes, and each pixel is
what the acts leave in it, one after another. -/
theorem foldl_acts {α : Type} {f : State → α → State} (act : α → Option (Int × Int × Byte)) {s : State} (l : List α)
    (hf : ∀ a ∈ l, ∀ fb, f (s.setFb fb) a =
      match act a with
      | none => s.setFb fb
      | some (px, py, b) => plot px py (some b) (s.setFb fb))
    (hs : s.fb.length = s.cfg.swidth * s.cfg.sheight) :
    ∃ fb, l.foldl f s = s.setFb fb ∧ fb.length = s.fb.length ∧
      ∀ qx < s.cfg.swidth, ∀ qy < s.cfg.sheight,
        pixelAt (s.setFb fb) qx qy = l.foldl (fun old a => actOn s.cfg qx qy old (act a)) (pixelAt s qx qy) := by
  suffices H : ∀ (l : List α), (∀ a ∈ l, ∀ fb, f (s.setFb fb) a =
      match act a with
      | none => s.setFb fb
      | some (px, py, b) => plot px py (some b) (s.setFb fb)) → ∀ g : List Byte, g.length = s.fb.length →
      ∃ fb, l.foldl f (s.setFb g) = s.setFb fb ∧ fb.length = s.fb.length ∧
        ∀ qx < s.cfg.swidth, ∀ qy < s.cfg.sheight,
          pixelAt (s.setFb fb) qx qy = l.foldl (fun old a => actOn s.cfg qx qy old (act a)) (pixelAt (s.setFb g) qx qy) by
    simpa using H l hf s.fb rfl
  clear hf l
  intro l
  induction l with
  | nil => intro _ g hg; exact ⟨g, rfl, hg, fun _ _ _ _ => rfl⟩
  | cons a l ih =>
    intro hf g hg
    have ha := hf a List.mem_cons_self g
    have ih := ih fun a h => hf a (List.mem_cons_of_mem _ h)
    simp only [List.foldl_cons, ha]
    cases h : act a with
    | none => simpa [actOn] using ih g hg
    | some q =>
      obtain ⟨px, py, b⟩ := q
      obtain ⟨g', e, hg'⟩ := plot_fb px py b (s.setFb g)
      obtain ⟨fb, e1, e2, e3⟩ := ih g' (hg'.trans hg)
      dsimp only
      rw [e, State.setFb_setFb]
      refine ⟨fb, e1, e2, fun qx hx qy hy => ?_⟩
      have hp := plot_pixel (s := s.setFb g) (by simpa [hg] using hs) px py b (qx := qx) (qy := qy) (by simpa using hx) (by simpa using hy)
      rw [e, State.setFb_setFb] at hp
      rw [e3 qx hx qy hy, hp]
      rfl

/-- A loop of acts of which none hits a pixel leaves it. -/
theorem foldl_actOn_none {α : Type} {c : Config} {qx qy : Nat} {act : α → Option (Int × Int × Byte)} {l : List α} (old : Byte)
    (h : ∀ a ∈ l, ∀ px py b, act a = some (px, py, b) → ¬ (px = qx ∧ py = qy)) :
    l.foldl (fun old a => actOn c qx qy old (act a)) old = old := by
  induction l generalizing old with
  | nil => rfl
  | cons a l ih =>
    have ha : actOn c qx qy old (act a) = old := by
      cases e : act a with
      | none => rfl
      | some q =>
        obtain ⟨px, py, b⟩ := q
        exact if_neg (h a List.mem_cons_self px py b e)
    rw [List.foldl_cons, ha]
    exact ih old fun a h' => h a (List.mem_cons_of_mem _ h')

/-- A loop of acts of which exactly one can hit a pixel leaves what that one leaves. -/
theorem foldl_actOn_one {α : Type} [DecidableEq α] {c : Config} {qx qy : Nat} {act : α → Option (Int × Int × Byte)} {l : List α}
    (old : Byte) (hl : l.Nodup) {a : α} (ha : a ∈ l)
    (h : ∀ d ∈ l, d ≠ a → ∀ px py b, act d = some (px, py, b) → ¬ (px = qx ∧ py = qy)) :
    l.foldl (fun old a => actOn c qx qy old (act a)) old = actOn c qx qy old (act a) := by
  induction l generalizing old with
  | nil => cases ha
  | cons d l ih =>
    obtain ⟨hd, hl⟩ := List.nodup_cons.mp hl
    rw [List.foldl_cons]
    by_cases e : d = a
    · subst e
      exact foldl_actOn_none _ fun x hx => h x (List.mem_cons_of_mem _ hx) fun e => hd (e ▸ hx)
    · have hm : a ∈ l := (List.mem_cons.mp ha).resolve_left fun e' => e e'.symm
      have hd' : actOn c qx qy old (act d) = old := by
        cases e' : act d with
        | none => rfl
        | some q =>
          obtain ⟨px, py, b⟩ := q
          exact if_neg (h d List.mem_cons_self e px py b e')
      rw [hd']
      exact ih old hl hm fun x hx => h x (List.mem_cons_of_mem _ hx)

/-- A blit of a view inside its image, with no race, paints its rectangle and nothing else (R70, R73). -/
theorem blit_pixels {s : State} (hr : s.raced = []) (hs : s.fb.length = s.cfg.swidth * s.cfg.sheight) {v : View}
    (hv : View.inside s v) (x0 y0 : Int) :
    ∃ fb, blit (some v) x0 y0 s = s.setFb fb ∧ fb.length = s.fb.length ∧
      ∀ qx < s.cfg.swidth, ∀ qy < s.cfg.sheight,
        pixelAt (s.setFb fb) qx qy =
          (rowMajor v.vw v.vh).foldl (fun old p => actOn s.cfg qx qy old
            ((texel v p.1 p.2 s).1.map fun b => (x0 + p.1, y0 + p.2, b))) (pixelAt s qx qy) := by
  obtain ⟨e, he, h0, h1, _, _, hw, hh⟩ := hv
  refine foldl_acts (fun p : Nat × Nat => (texel v p.1 p.2 s).1.map fun b => (x0 + (p.1 : Int), y0 + (p.2 : Int), b)) _ (fun p hp fb => ?_) hs
  obtain ⟨hpx, hpy⟩ := mem_rowMajor.mp hp
  have hin : 0 ≤ v.vx + p.1 ∧ v.vx + p.1 < e.w ∧ 0 ≤ v.vy + p.2 ∧ v.vy + p.2 < e.h := by omega
  have ht := texel_inside hr he hin
  have ht' := texel_inside (s := s.setFb fb) (by simpa using hr) (by simpa using he) hin
  simp only [plotTexel, ht, ht', Option.map_some]
  rfl

end Sys2Proof.Machine
end

