-- ==== Sys2Proof/Laws/Assets.lean ====
section
/-! SUPPORT. Everything the palettizer can do (R132): what it keeps, in every state. -/

namespace Sys2Proof.Machine

/-- `t` is `s` after some palettizing of bytes among `A`: the palette has grown at its end without repeats and within its capacity, bytes
of `A` have been stored, the overflow bit may have been set, free values have been used, and nothing else has changed. -/
def Palettized (A : Nat → Prop) (s t : State) : Prop :=
  ∃ l o m k, t = { s with pal := s.pal ++ l, palOvf := o, texmem := m, draws := k } ∧
    (s.palOvf = true → o = true) ∧
    (s.pal.Nodup → (s.pal ++ l).Nodup) ∧
    (s.pal.length ≤ s.cfg.palCap → (s.pal ++ l).length ≤ s.cfg.palCap) ∧
    (Memory.wf s.texmem → Memory.wf m) ∧
    (∀ c ∈ m, A c.1 ∨ c ∈ s.texmem) ∧
    ∀ a, ¬ A a → t.texByte a = s.texByte a

variable {A : Nat → Prop} {s t u : State}

theorem Palettized.refl (s : State) : Palettized A s s :=
  ⟨[], s.palOvf, s.texmem, s.draws, by simp, id, by simp, by simp, id, fun _ h => .inr h, fun _ _ => rfl⟩

theorem Palettized.trans (h : Palettized A s t) (g : Palettized A t u) : Palettized A s u := by
  obtain ⟨l, o, m, k, rfl, h1, h2, h3, h4, h5, h6⟩ := h
  obtain ⟨l', o', m', k', rfl, g1, g2, g3, g4, g5, g6⟩ := g
  refine ⟨l ++ l', o', m', k', by simp, g1 ∘ h1, ?_, ?_, g4 ∘ h4, fun c hc => ?_, fun a ha => ?_⟩
  · simpa using g2 ∘ h2
  · simpa using g3 ∘ h3
  · exact (g5 c hc).elim .inl (h5 c)
  · exact (g6 a ha).trans (h6 a ha)

theorem Palettized.setDraws (s : State) (k : Nat) : Palettized A s (s.setDraws k) :=
  ⟨[], s.palOvf, s.texmem, k, by simp [State.setDraws], id, by simp, by simp, id, fun _ h => .inr h, fun _ _ => rfl⟩

theorem Palettized.storeByte {a : Nat} (ha : A a) (v : Byte) (s : State) : Palettized A s (s.storeByte a v) := by
  refine ⟨[], s.palOvf, Memory.write s.texmem a v, s.draws, by simp [State.storeByte, State.setTexmem], id, by simp, by simp,
    Memory.wf_write, fun c hc => ?_, fun b hb => ?_⟩
  · rcases Memory.mem_write hc with e | h
    · exact .inl (by rw [e]; exact ha)
    · exact .inr h
  · rw [State.texByte_storeByte, if_neg fun e : b = a => hb (e ▸ ha)]

theorem Palettized.texRead8 (a : Nat) (s : State) : Palettized A s (texRead8 a s).2 := by
  obtain ⟨k, e⟩ := texRead8_state a s
  exact e ▸ .setDraws s k

theorem Palettized.texWrite8 {a : Nat} (ha : A a) (v : Byte) (s : State) : Palettized A s (texWrite8 a v s) := by
  obtain ⟨b, k, e⟩ := texWrite8_state a v s
  exact e ▸ (Palettized.storeByte ha b s).trans (.setDraws _ k)

theorem Palettized.palPush (c : Word) (s : State) : Palettized A s (palPush c s).2 := by
  obtain ⟨l, o, e, ho, hl⟩ := palPush_state c s
  refine ⟨l, o, s.texmem, s.draws, e, ho, fun hn => ?_, fun hc => ?_, id, fun _ h => .inr h, fun a _ => by rw [e]; rfl⟩
  · rcases hl with rfl | ⟨rfl, hm, _⟩
    · simpa using hn
    · exact List.nodup_append.mpr ⟨hn, List.nodup_singleton c, fun a ha b hb => by
        rintro rfl
        exact hm (List.mem_singleton.mp hb ▸ ha)⟩
  · rcases hl with rfl | ⟨rfl, _, hlt⟩
    · simpa using hc
    · simpa using hlt

theorem Palettized.readPixel (a : Nat) (s : State) : Palettized A s (readPixel a s).2 :=
  (Palettized.texRead8 a s).trans <| (Palettized.texRead8 _ _).trans <| (Palettized.texRead8 _ _).trans (Palettized.texRead8 _ _)

theorem Palettized.writePixel {a : Nat} (h0 : A a) (h1 : A (a + 1)) (h2 : A (a + 2)) (h3 : A (a + 3)) (i : Nat) (s : State) :
    Palettized A s (writePixel a i s) :=
  (Palettized.texWrite8 h0 _ _).trans <| (Palettized.texWrite8 h1 _ _).trans <| (Palettized.texWrite8 h2 _ _).trans
    (Palettized.texWrite8 h3 _ _)

/-- One visit of the palettizer. -/
theorem palettizePixel_spec {a : Nat} (h0 : A a) (h1 : A (a + 1)) (h2 : A (a + 2)) (h3 : A (a + 3)) (s : State) :
    Palettized A s (palettizePixel a s).2 := by
  have hc := Palettized.readPixel (A := A) a s
  unfold palettizePixel
  generalize readPixel a s = c at hc ⊢
  exact hc.trans <| (Palettized.palPush c.1 c.2).trans (Palettized.writePixel h0 h1 h2 h3 _ _)

/-- The address of a pixel lies in the image. -/
theorem pix_bounds (base : Nat) {w h x y : Nat} (hx : x < w) (hy : y < h) :
    base ≤ pix base w x y ∧ pix base w x y + 3 < base + 4 * w * h := by
  unfold pix
  have := Nat.mul_le_mul_right w (Nat.succ_le_of_lt hy)
  simp only [Nat.succ_mul] at this
  rw [Nat.mul_assoc, Nat.mul_comm w h]
  omega

/-- The palettizer (R132): it stores only bytes of the image. -/
theorem palettize_spec (base w h : Nat) (s : State) :
    Palettized (fun a => base ≤ a ∧ a < base + 4 * w * h) s (palettize base w h s).2 := by
  suffices H : ∀ (f : List Nat × State → Nat × Nat → List Nat × State),
      (∀ acc p, p.1 < w → p.2 < h → Palettized (fun a => base ≤ a ∧ a < base + 4 * w * h) acc.2 (f acc p).2) →
      ∀ (l : List (Nat × Nat)), (∀ p ∈ l, p.1 < w ∧ p.2 < h) → ∀ acc,
        Palettized (fun a => base ≤ a ∧ a < base + 4 * w * h) acc.2 (l.foldl f acc).2 by
    unfold palettize
    apply H
    · intro acc p hx hy
      obtain ⟨b0, b1⟩ := pix_bounds base hx hy
      dsimp only
      apply palettizePixel_spec <;> omega
    · exact fun p hp => mem_columnMajor.mp hp
  intro f hf l
  induction l with
  | nil => exact fun _ acc => .refl acc.2
  | cons p l ih =>
    intro hl acc
    obtain ⟨hx, hy⟩ := hl p List.mem_cons_self
    exact (hf acc p hx hy).trans (ih (fun q hq => hl q (List.mem_cons_of_mem _ hq)) _)

end Sys2Proof.Machine
end

