-- ==== Sys2Proof/Laws/Decode.lean ====
section
/-! SUPPORT. The fields of a header, and the packing of strings. -/

namespace Sys2Proof

/-! ## Headers -/

variable {opc nw : Nat}

theorem header_toNat (ho : opc < 256) (hn : nw < 256) : (header opc nw).toNat = opc * 2 ^ 24 + nw * 2 ^ 16 := by
  simp only [header, BitVec.toNat_ofNat]; omega

theorem hdrOpc_header (ho : opc < 256) (hn : nw < 256) : hdrOpc (header opc nw) = opc := by
  simp only [hdrOpc, bits, header_toNat ho hn]; omega

theorem hdrNw_header (ho : opc < 256) (hn : nw < 256) : hdrNw (header opc nw) = nw := by
  simp only [hdrNw, bits, header_toNat ho hn]; omega

theorem hdrRsv_header (ho : opc < 256) (hn : nw < 256) : hdrRsv (header opc nw) = 0 := by
  simp only [hdrRsv, bits, header_toNat ho hn]; omega

/-- A header is its three fields. -/
theorem header_of_fields {hdr : Word} (h : hdrRsv hdr = 0) : header (hdrOpc hdr) (hdrNw hdr) = hdr := by
  apply BitVec.eq_of_toNat_eq
  have := hdr.isLt
  simp only [hdrRsv, bits] at h
  simp only [header, hdrOpc, hdrNw, bits, BitVec.toNat_ofNat]
  omega

theorem opcode_lt (i : Instr) : i.opcode < 256 := by cases i <;> simp [Instr.opcode]

/-! ## Strings -/

theorem packStr_length (t : Bytes) : (packStr t).length = strWords t.length := by
  induction t using packStr.induct with
  | case1 => rfl
  | case2 => simp [packStr, strWords]
  | case3 => simp [packStr, strWords]
  | case4 => simp [packStr, strWords]
  | case5 a b c d rest ih => simp only [packStr, List.length_cons, ih, strWords]; omega

theorem strArgs_length (t : Bytes) : (strArgs t).length = 1 + strWords t.length := by
  simp only [strArgs, List.length_cons, packStr_length]; omega

theorem wordBytes_bytesWord (a b c d : Byte) : wordBytes (bytesWord a b c d) = [a, b, c, d] := by
  have := a.isLt; have := b.isLt; have := c.isLt; have := d.isLt
  simp only [wordBytes, bytesWord, bits, BitVec.toNat_ofNat, List.cons.injEq, and_true]
  refine ⟨?_, ?_, ?_, ?_⟩ <;> (apply BitVec.eq_of_toNat_eq; simp only [BitVec.toNat_ofNat]; omega)

/-! ## Small operands -/

theorem boolOf_boolWord (b : Bool) : boolOf (boolWord b) = b := by cases b <;> decide

theorem rgbOf_rgbWord (c : BitVec 24) : rgbOf (rgbWord c) = c := by
  have := c.isLt
  apply BitVec.eq_of_toNat_eq
  simp only [rgbOf, rgbWord, bits, BitVec.toNat_ofNat]
  omega

/-! ## Lengths of encodings -/

/-- A command whose argument words fit is a whole command with the header of its row. -/
theorem encode_header {i : Instr} (h : i.args.length < 256) :
    wholeCommand (encode i) = true ∧ ∃ hdr, (encode i).head? = some hdr ∧ hdrOpc hdr = i.opcode ∧ hdrRsv hdr = 0 ∧
      hdrNw hdr = i.args.length := by
  refine ⟨?_, _, rfl, hdrOpc_header (opcode_lt i) h, hdrRsv_header (opcode_lt i) h, hdrNw_header (opcode_lt i) h⟩
  simp [wholeCommand, encode, hdrNw_header (opcode_lt i) h]

end Sys2Proof
end

