-- ==== Sys2Proof/Laws/Numbers.lean ====
section
/-! SUPPORT. The integer formulas of the machine are the rational ones of the spec (R10, R11). -/

namespace Sys2Proof.Machine

/-- `floor` of a fixed-point number. -/
theorem fixFloor_eq (q : Fix) : fixFloor q = ⌊(q : ℚ) / 65536⌋ := by
  have := Rat.floor_intCast_div_natCast q 65536
  simpa [fixFloor, fixOne] using this.symm

/-- `ceil(n / d)` of integers. -/
theorem ceilDiv_eq (n : Int) (d : Nat) : ceilDiv n d = ⌈(n : ℚ) / d⌉ := by
  have := Rat.floor_intCast_div_natCast (-n) d
  rw [ceilDiv, ← this, ← Int.ceil_neg]
  push_cast
  ring_nf

/-- `ceil` of a fixed-point number. -/
theorem fixCeil_eq (q : Fix) : fixCeil q = ⌈(q : ℚ) / 65536⌉ := by
  simpa [fixCeil, ceilDiv, fixOne] using ceilDiv_eq q 65536

/-- Division rounding down is the floor of the quotient. -/
theorem fdiv_eq_floor (a b : Int) : a.fdiv b = ⌊(a : ℚ) / b⌋ := by
  obtain ⟨n, rfl | rfl⟩ := b.eq_nat_or_neg
  · rw [Int.fdiv_eq_ediv_of_nonneg _ (Int.natCast_nonneg n), ← Rat.floor_intCast_div_natCast]
    rfl
  · have h := Rat.floor_intCast_div_natCast (-a) n
    rw [← Int.neg_fdiv_neg, neg_neg, Int.fdiv_eq_ediv_of_nonneg _ (Int.natCast_nonneg n), ← h]
    push_cast
    ring_nf

/-- `floor(o + r/e)` (R182). -/
theorem texelCoord_eq {o r e : Fix} (he : e ≠ 0) : texelCoord o r e = ⌊(o : ℚ) / 65536 + r / e⌋ := by
  have he' : (e : ℚ) ≠ 0 := by exact_mod_cast he
  rw [texelCoord, fdiv_eq_floor]
  congr 1
  simp only [fixOne]
  push_cast
  field_simp

/-- `ceil(n / d)` of naturals (R145, R8). -/
theorem natCeilDiv_eq {n d : Nat} (hd : 1 ≤ d) : (((n + (d - 1)) / d : Nat) : Int) = ⌈(n : ℚ) / d⌉ := by
  have hd' : (0 : ℚ) < d := by exact_mod_cast hd
  have l := Nat.div_mul_le_self (n + (d - 1)) d
  have u := Nat.lt_div_mul_add (a := n + (d - 1)) (show 0 < d from hd)
  generalize (n + (d - 1)) / d = q at *
  have l' : (q : ℚ) * d < n + d := by exact_mod_cast (show q * d < n + d by omega)
  have u' : (n : ℚ) ≤ q * d := by exact_mod_cast (show n ≤ q * d by omega)
  refine (Int.ceil_eq_iff.mpr ⟨?_, ?_⟩).symm
  · rw [lt_div_iff₀ hd']; push_cast; linarith
  · rw [div_le_iff₀ hd']; exact_mod_cast u'

end Sys2Proof.Machine
end

