-- ==== Sys2Proof/Laws/PerInstr.lean ====
section
/-! SUPPORT. What holds of every command as syntax, one lemma per constructor: the encoding of a well-formed command is one whole command
whose header carries its opcode, its word count and a zero `RSV` field (R85, R86). -/

namespace Sys2Proof.Laws.Framed

/-- The encoding of a well-formed command is one header and exactly the words it announces, and its fields are the command's. -/
def Statement (i : Instr) : Prop :=
  i.wf = true →
    wholeCommand (encode i) = true ∧ ∃ hdr, (encode i).head? = some hdr ∧ hdrOpc hdr = i.opcode ∧ hdrRsv hdr = 0 ∧
      hdrNw hdr = i.args.length

/-- A string no longer than `strMax` fits after its argument words. -/
theorem fits {t : Bytes} {fixed : Nat} (hf : fixed ≤ 254) (h : t.length ≤ strMax fixed) : fixed + (strArgs t).length < 256 := by
  simp only [strMax] at h
  simp only [strArgs_length, strWords]
  omega

theorem nop : Statement (.nop) := fun _ => encode_header (by simp [Instr.args])
theorem drawen (b : Bool) : Statement (.drawen b) := fun _ => encode_header (by simp [Instr.args])
theorem prerender : Statement (.prerender) := fun _ => encode_header (by simp [Instr.args])
theorem postrender : Statement (.postrender) := fun _ => encode_header (by simp [Instr.args])
theorem clear (c : BitVec 24) : Statement (.clear c) := fun _ => encode_header (by simp [Instr.args])
theorem camera (x y : Word) : Statement (.camera x y) := fun _ => encode_header (by simp [Instr.args])
theorem stile (id i j : Word) : Statement (.stile id i j) := fun _ => encode_header (by simp [Instr.args])
theorem stileSpan (id i j w h : Word) : Statement (.stileSpan id i j w h) := fun _ => encode_header (by simp [Instr.args])
theorem sorigin (x y : Word) : Statement (.sorigin x y) := fun _ => encode_header (by simp [Instr.args])
theorem sflip (h v : Bool) : Statement (.sflip h v) := fun _ => encode_header (by simp [Instr.args])
theorem sscale (h v : Word) : Statement (.sscale h v) := fun _ => encode_header (by simp [Instr.args])
theorem srot (deg : Word) : Statement (.srot deg) := fun _ => encode_header (by simp [Instr.args])
theorem sclear : Statement (.sclear) := fun _ => encode_header (by simp [Instr.args])
theorem sdraw (x y : Word) : Statement (.sdraw x y) := fun _ => encode_header (by simp [Instr.args])
theorem sbox (x y w h : Word) : Statement (.sbox x y w h) := fun _ => encode_header (by simp [Instr.args])
theorem fnt (name : Bytes) : Statement (.fnt name) := fun h =>
  encode_header (by have := fits (fixed := 0) (by decide) (of_decide_eq_true h); simp only [Instr.args]; omega)
theorem falign (x y : Word) : Statement (.falign x y) := fun _ => encode_header (by simp [Instr.args])
theorem fcolor (c : BitVec 24) : Statement (.fcolor c) := fun _ => encode_header (by simp [Instr.args])
theorem fclear : Statement (.fclear) := fun _ => encode_header (by simp [Instr.args])
theorem fdraw (x y : Word) (text : Bytes) : Statement (.fdraw x y text) := fun h =>
  encode_header (by have := fits (fixed := 2) (by decide) (of_decide_eq_true h); simp only [Instr.args, List.length_cons]; omega)
theorem tmap (name : Bytes) : Statement (.tmap name) := fun h =>
  encode_header (by have := fits (fixed := 0) (by decide) (of_decide_eq_true h); simp only [Instr.args]; omega)
theorem tmode (val : Word) : Statement (.tmode val) := fun _ => encode_header (by simp [Instr.args])
theorem mmode (val : Word) : Statement (.mmode val) := fun _ => encode_header (by simp [Instr.args])
theorem mfill (x y id i j : Word) : Statement (.mfill x y id i j) := fun _ => encode_header (by simp [Instr.args])
theorem mfillSpan (x y id i j w h : Word) : Statement (.mfillSpan x y id i j w h) := fun _ => encode_header (by simp [Instr.args])
theorem mscroll (x y : Word) : Statement (.mscroll x y) := fun _ => encode_header (by simp [Instr.args])
theorem mclear : Statement (.mclear) := fun _ => encode_header (by simp [Instr.args])
theorem mdraw : Statement (.mdraw) := fun _ => encode_header (by simp [Instr.args])
theorem palpush (c : Word) : Statement (.palpush c) := fun _ => encode_header (by simp [Instr.args])
theorem palpushrgb (c : BitVec 24) : Statement (.palpushrgb c) := fun _ => encode_header (by simp [Instr.args])
theorem palindex (c : Word) : Statement (.palindex c) := fun _ => encode_header (by simp [Instr.args])
theorem palcolor (i : Word) : Statement (.palcolor i) := fun _ => encode_header (by simp [Instr.args])
theorem palupdate : Statement (.palupdate) := fun _ => encode_header (by simp [Instr.args])
theorem loadtm (base w h cell : Word) (name : Bytes) : Statement (.loadtm base w h cell name) := fun h =>
  encode_header (by have := fits (fixed := 4) (by decide) (of_decide_eq_true h); simp only [Instr.args, List.length_cons]; omega)
theorem loadfnt (fid : Word) (name : Bytes) : Statement (.loadfnt fid name) := fun h =>
  encode_header (by have := fits (fixed := 1) (by decide) (of_decide_eq_true h); simp only [Instr.args, List.length_cons]; omega)

end Sys2Proof.Laws.Framed
end

