-- ==== Sys2Proof/Laws/Step.lean ====
section
/-! SUPPORT. Everything a step can do, said once. -/

namespace Sys2Proof.Machine

/-- A step executes the legal command in assembly, or discards the illegal one, or consumes a word, or waits. -/
theorem step_cases (s : State) :
    (∃ i, commandReady s = true ∧ decode s.asm = .ok i ∧ step s = exec i s.retire) ∨
    (∃ e, commandReady s = true ∧ decode s.asm = .error e ∧ step s = .next (discardIllegal s.retire)) ∨
    (commandReady s = false ∧ ∃ w rest, s.fifo = w :: rest ∧
      step s = .next { s with fifo := rest, asm := s.asm ++ [w], pos := s.pos + 1 }) ∨
    (commandReady s = false ∧ s.fifo = [] ∧ step s = .next s) := by
  cases h : commandReady s with
  | true =>
    cases hd : decode s.asm with
    | ok i => exact .inl ⟨i, rfl, rfl, by simp [step, h, hd]⟩
    | error e => exact .inr (.inl ⟨e, rfl, rfl, by simp [step, h, hd]⟩)
  | false =>
    rcases consumeWord_cases s with ⟨hf, hc⟩ | ⟨w, rest, hf, hc⟩
    · exact .inr (.inr (.inr ⟨rfl, hf, by simp [step, h, hc]⟩))
    · exact .inr (.inr (.inl ⟨rfl, w, rest, hf, by simp [step, h, hc]⟩))

end Sys2Proof.Machine
end

