-- ==== Sys2Proof/Tests/Slice0.lean ====
section
/-! SUPPORT. The model's own tests, each one step or one decoding, with expected results from spec/95_test_vectors.md or worked out
from the rule named; and one witness for the hypotheses of every statement that has some. -/

namespace Sys2Proof.Tests

open Sys2Proof.Machine Sys2Proof.Spec

/-! ## Small states -/

/-- The parameters of 95_test_vectors.md's notation. -/
def cfg16 : Config where
  swidth := 16
  sheight := 16
  numSprites := 4
  palCap := 64
  tnum := 0
  tmMax := 4
  fontMax := 2
  texmemBytes := 4096
  fifoDepth := 8
  ppuBase := 0x1000
  compose := .overwrite
  gridOob := .drop

/-- After reset, with `DRAW_EN = 1` and every pixel 9. -/
def s0 : State := { State.resetWith cfg16 0 with drawEn := true, fb := List.replicate 256 9 }

/-- The next state (a state no test expects, where there is none). -/
def after (o : Host.Outcome State Fault Refusal) : State :=
  match o with
  | .next t => t
  | .fault _ => State.resetWith cfg16 99
  | .refused _ => State.resetWith cfg16 99

/-- The blue bytes of an image at base 0, index `f x y` at pixel `(x, y)`; drawing reads no other byte (R64). -/
def img (w h : Nat) (f : Nat → Nat → Nat) : Memory :=
  (rowMajor w h).map fun p => (4 * (p.2 * w + p.1) + 2, BitVec.ofNat 8 (f p.1 p.2))

/-- `s` with tilemap 0 registered for a `w × h` image of cell size 8. -/
def withTm (w h : Nat) (s : State) : State := { s with tm := [{ name := [0x54], base := 0, w := w, h := h, cell := 8 }] }

/-- The pixels of the screen that do not hold 9, row-major. -/
def changed (t : State) : List (Nat × Nat × Byte) :=
  (rowMajor 16 16).filterMap fun p => if pixelAt t p.1 p.2 = 9 then none else some (p.1, p.2, pixelAt t p.1 p.2)

/-- Rows of pixels: a row's y, its first x, its indices. -/
def rows (l : List (Nat × Nat × List Byte)) : List (Nat × Nat × Byte) :=
  l.flatMap fun r => r.2.2.zipIdx.map fun v => (r.2.1 + v.2, r.1, v.1)

/-- The texture of 95_test_vectors.md section 3.5: a 4 × 2 view whose texel `(tx, ty)` holds `16·tx + ty`. -/
def s4x2 : State :=
  { withTm 4 2 s0 with texmem := img 4 2 fun x y => 16 * x + y, ns := { NextSprite.default with tex := some ⟨0, 0, 0, 4, 2⟩ } }

/-- Program P3's texture: a 3 × 3 view, corners 1, edges 2, centre 3; budget 20. -/
def s3x3 : State :=
  { withTm 3 3 s0 with
    cfg := { cfg16 with numSprites := 20 }
    texmem := img 3 3 fun x y => 1 + x % 2 + y % 2
    ns := { NextSprite.default with tex := some ⟨0, 0, 0, 3, 3⟩ } }

/-- Program P4's image: three 8 × 8 cells of indices 1, 2 and 3. -/
def s24x8 : State := { withTm 24 8 s0 with texmem := img 24 8 fun x _ => 1 + x / 8 }

/-- A 2 × 1 image, red then blue, at base 0 (R133's example). -/
def sRedBlue : State := { s0 with texmem := [(0, 255), (1, 0), (2, 0), (3, 255), (4, 0), (5, 0), (6, 255), (7, 255)] }

/-- A 2 × 2 image at base 0 with the colours P and Q in its first row, R and P in its second. -/
def sPQRP : State :=
  { s0 with texmem := ([0x50, 0x51, 0x52, 0x50] : List Byte).zipIdx.flatMap fun p => (List.range 4).map fun k => (4 * p.2 + k, p.1) }

/-! ## Well-formedness: a string that fits and one that is a byte too long, for each check -/

theorem test_wf_fnt : (Instr.fnt (List.replicate 1016 0)).wf = true ∧ (Instr.fnt (List.replicate 1017 0)).wf = false := by
  decide +kernel
theorem test_wf_tmap : (Instr.tmap (List.replicate 1016 0)).wf = true ∧ (Instr.tmap (List.replicate 1017 0)).wf = false := by
  decide +kernel
theorem test_wf_fdraw : (Instr.fdraw 0 0 (List.replicate 1008 0)).wf = true ∧ (Instr.fdraw 0 0 (List.replicate 1009 0)).wf = false := by
  decide +kernel
theorem test_wf_loadtm :
    (Instr.loadtm 0 1 1 8 (List.replicate 1000 0)).wf = true ∧ (Instr.loadtm 0 1 1 8 (List.replicate 1001 0)).wf = false := by
  decide +kernel
theorem test_wf_loadfnt : (Instr.loadfnt 0 (List.replicate 1012 0)).wf = true ∧ (Instr.loadfnt 0 (List.replicate 1013 0)).wf = false := by
  decide +kernel

/-! ## Decoding: 95_test_vectors.md section 2, every constructor -/

/-- The words decode to the command, and are what the encoder writes for it. -/
def agrees (ws : List Word) (i : Instr) : Bool := (decode ws).toOption == some i && encode i == ws

theorem test_words_control :
    agrees [0x00000000] .nop ∧ agrees [0x01010000, 0x00000001] (.drawen true) ∧ agrees [0x01010000, 0x00000000] (.drawen false) ∧
      agrees [0x02000000] .prerender ∧ agrees [0x03000000] .postrender ∧ agrees [0x10010000, 0x00123456] (.clear 0x123456) ∧
      agrees [0x11020000, 0xFFFF8000, 0x00000000] (.camera 0xFFFF8000 0) := by decide

theorem test_words_sprite :
    agrees [0x20030000, 0x00000000, 0x00000001, 0x00000000] (.stile 0 1 0) ∧
      agrees [0x20050000, 0x00000000, 0x00000000, 0x00000000, 0x00008000, 0x00004000] (.stileSpan 0 0 0 0x8000 0x4000) ∧
      agrees [0x21020000, 0x00020000, 0x00010000] (.sorigin 0x20000 0x10000) ∧
      agrees [0x22020000, 0x00000001, 0x00000000] (.sflip true false) ∧
      agrees [0x23020000, 0xFFFF0000, 0x00010000] (.sscale 0xFFFF0000 0x10000) ∧
      agrees [0x24010000, 0xFFA60000] (.srot 0xFFA60000) ∧ agrees [0x25000000] .sclear ∧
      agrees [0x26020000, 0x00080000, 0x00048000] (.sdraw 0x80000 0x48000) ∧
      agrees [0x27040000, 0xFFFFFFFF, 0xFFFFFFFE, 0x00000003, 0x00000004] (.sbox 0xFFFFFFFF 0xFFFFFFFE 3 4) := by decide

theorem test_words_text :
    agrees [0x30020000, 0x00000001, 0x00000066] (.fnt [0x66]) ∧ agrees [0x31020000, 0x00008000, 0x00008000] (.falign 0x8000 0x8000) ∧
      agrees [0x32010000, 0x00FFFFFF] (.fcolor 0xFFFFFF) ∧ agrees [0x33000000] .fclear ∧
      agrees [0x34040000, 0x00080000, 0x00080000, 0x00000002, 0x00004241] (.fdraw 0x80000 0x80000 [0x41, 0x42]) := by decide

theorem test_words_tilemap :
    agrees [0x40020000, 0x00000001, 0x00000041] (.tmap [0x41]) ∧
      agrees [0x40030000, 0x00000005, 0x656C6974, 0x00000073] (.tmap [0x74, 0x69, 0x6C, 0x65, 0x73]) ∧
      agrees [0x40010000, 0x00000000] (.tmap []) ∧ agrees [0x41010000, 0x00000010] (.tmode 16) := by decide

theorem test_words_grid :
    agrees [0x50010000, 0x00000010] (.mmode 16) ∧ agrees [0x51050000, 1, 0, 0, 2, 0] (.mfill 1 0 0 2 0) ∧
      agrees [0x51070000, 1, 0, 0, 0, 0, 3, 1] (.mfillSpan 1 0 0 0 0 3 1) ∧
      agrees [0x52020000, 0xFFFFFFFD, 0x00000000] (.mscroll 0xFFFFFFFD 0) ∧ agrees [0x53000000] .mclear ∧
      agrees [0x54000000] .mdraw := by decide

theorem test_words_palette :
    agrees [0x60010000, 0xFF0000FF] (.palpush 0xFF0000FF) ∧ agrees [0x61010000, 0x00FF0000] (.palpushrgb 0xFF0000) ∧
      agrees [0x62010000, 0x0000FFFF] (.palindex 0x0000FFFF) ∧ agrees [0x63010000, 0xFFFFFFFF] (.palcolor 0xFFFFFFFF) ∧
      agrees [0x64000000] .palupdate := by decide

theorem test_words_assets :
    agrees [0x70060000, 0, 2, 1, 8, 1, 0x00000041] (.loadtm 0 2 1 8 [0x41]) ∧
      agrees [0x71030000, 0x00000003, 0x00000004, 0x6F636970] (.loadfnt 3 [0x70, 0x69, 0x63, 0x6F]) := by decide

/-- R91: bits 31:24 of an `RGB` word are ignored; R90: any word but 0 is true. -/
theorem test_words_ignored_bits :
    decode [0x61010000, 0x12FF0000] = .ok (.palpushrgb 0xFF0000) ∧ decode [0x01010000, 5] = .ok (.drawen true) := ⟨rfl, rfl⟩

/-- The illegal sequences of 95_test_vectors.md section 2. -/
theorem test_illegal_words :
    decode [0x00000001] = .error .reservedBits ∧ decode [0x04020000, 0xAAAAAAAA, 0xBBBBBBBB] = .error .reservedOpcode ∧
      decode [0xFF000000] = .error .reservedOpcode ∧ decode [0x01000000] = .error .badWordCount ∧
      decode [0x20040000, 0, 0, 0, 0] = .error .badWordCount ∧ decode [0x51060000, 0, 0, 0, 0, 0, 0] = .error .badWordCount ∧
      decode [0x40020000, 0x00000005, 0x00000041] = .error .malformedString ∧
      decode [0x40030000, 0x00000001, 0x00000041, 0x00000000] = .error .malformedString ∧
      decode [0x54000001] = .error .reservedBits := ⟨rfl, rfl, rfl, rfl, rfl, rfl, rfl, rfl, rfl⟩

theorem test_table_word : decodeTableWord 32 0x51070000 = some (.mfillSpan 0 0 0 0 0 0 0) ∧ decodeTableWord 32 0x30000000 = none := by
  decide

/-! ## One step -/

/-- R99: the two argument words of an illegal command are not decoded as commands; only `ERR_ILL` is set. -/
theorem test_step_illegal :
    after (step { s0 with asm := [0x04020000, 0xAAAAAAAA, 0xBBBBBBBB], result := 7 }) = { s0 with result := 7, errIll := true } := by
  decide +kernel

/-- R101 and R266: a gated command with `DRAW_EN = 0` does nothing, an illegal one sets `ERR_ILL`. -/
theorem test_step_gated :
    after (step { s0 with drawEn := false, asm := [0x10010000, 0x00FF0000] }) = { s0 with drawEn := false } ∧
      after (step { s0 with drawEn := false, asm := [0x04010000, 0] }) = { s0 with drawEn := false, errIll := true } := by
  decide +kernel

/-- R106: a command that misses its last word waits, and takes the next word written. -/
theorem test_step_incomplete :
    after (step { s0 with asm := [0x26020000, 0x00080000] }) = { s0 with asm := [0x26020000, 0x00080000] } ∧
      after (step { s0 with asm := [0x26020000, 0x00080000], fifo := [5] }) =
        { s0 with asm := [0x26020000, 0x00080000, 5], pos := 1 } := by
  decide +kernel

theorem test_fetch_word : after (step (s0.withFetchWord 64 0x0000000001010000)) = { s0 with drawEn := false } := by decide +kernel

/-! ## Frame control (95_test_vectors.md sections 3.1 and 3.7) -/

theorem test_drawen : statusWord (after (exec (.drawen true) (State.resetWith cfg16 0))) = 1 := by decide
theorem test_postrender :
    let t := after (exec .postrender { s0 with sc := 3, lut := [0, 0xFF0000FF], fb := List.replicate 256 1 })
    t.presents = [List.replicate 256 0xFF0000FF] ∧ t.sc = 0 := by decide +kernel
theorem test_clear_known : (after (exec (.clear 0xFF0000) { s0 with pal := [0, 0x000000FF, 0xFF0000FF] })).fb = List.replicate 256 2 := by
  decide +kernel
theorem test_clear_unknown :
    let t := after (exec (.clear 0x00FF00) s0)
    t.fb = List.replicate 256 0 ∧ statusWord t = 1 := by decide +kernel
theorem test_camera : (after (exec (.camera 0xFFFF8000 0) s0)).camX = -32768 := by decide

/-! ## Sprites (95_test_vectors.md sections 3.3 and 3.5) -/

theorem test_stile : (after (exec (.stile 0 3 0) (withTm 64 64 s0))).ns.tex = some ⟨0, 24, 0, 8, 8⟩ := by decide
theorem test_stile_out :
    let t := after (exec (.stile 0 8 0) { withTm 64 64 s0 with ns := { NextSprite.default with tex := some ⟨0, 0, 0, 8, 8⟩ } })
    t.ns.tex = none ∧ t.logNf = true := by decide
theorem test_stile_span_clamped : (after (exec (.stileSpan 0 7 7 0x20000 0x20000) (withTm 64 64 s0))).ns.tex = some ⟨0, 56, 56, 8, 8⟩ := by
  decide
theorem test_stile_span_rounds_up : (after (exec (.stileSpan 0 0 0 0x1000 0x10000) (withTm 64 64 s0))).ns.tex = some ⟨0, 0, 0, 1, 8⟩ := by
  decide
theorem test_sorigin : (after (exec (.sorigin 0x20000 0x10000) s0)).ns = { NextSprite.default with ox := 131072, oy := 65536 } := by decide
theorem test_sflip : effH (after (exec (.sflip true false) { s0 with ns := { NextSprite.default with scaleH := 131072 } })).ns = -131072 := by
  decide
theorem test_sscale : (after (exec (.sscale 0xFFFF0000 0) s0)).ns = { NextSprite.default with scaleH := -65536, scaleV := 0 } := by decide
theorem test_srot : (after (exec (.srot 0xFFA60000) s0)).ns.rot = -90 * 65536 := by decide
theorem test_sclear : (after (exec .sclear s4x2)).ns = NextSprite.default := by decide

/-- `SORIGIN 2, 1 ; SROT 90 ; SDRAW 8, 8`: clockwise (R184). -/
theorem test_sdraw_rotated :
    let t := after (exec (.sdraw 0x80000 0x80000) { s4x2 with ns := { s4x2.ns with ox := 131072, oy := 65536, rot := 90 * 65536 } })
    t.sc = 1 ∧ changed t = rows [(6, 7, [0x01, 0x00]), (7, 7, [0x11, 0x10]), (8, 7, [0x21, 0x20]), (9, 7, [0x31, 0x30])] := by
  decide +kernel
/-- `SSCALE 2, 1 ; SFLIP 1, 0 ; SDRAW 8, 8`. -/
theorem test_sdraw_flipped :
    changed (after (exec (.sdraw 0x80000 0x80000) { s4x2 with ns := { s4x2.ns with scaleH := 131072, flipH := true } })) =
      rows [(8, 0, [0x30, 0x30, 0x20, 0x20, 0x10, 0x10, 0x00, 0x00]), (9, 0, [0x31, 0x31, 0x21, 0x21, 0x11, 0x11, 0x01, 0x01])] := by
  decide +kernel

/-- Program P3, command 6: the budget cuts the list after two tiles of the centre. -/
theorem test_sbox_budget :
    let t := after (exec (.sbox 2 2 6 5) s3x3)
    t.sc = 20 ∧ changed t = rows [(2, 2, [1, 2, 2, 2, 2, 1]), (3, 2, [2, 3, 3]), (3, 7, [2]), (4, 2, [2]), (4, 7, [2]), (5, 2, [2]), (5, 7, [2]),
      (6, 2, [1, 2, 2, 2, 2, 1])] := by decide +kernel
/-- `SBOX 5, 5, 0, 0`: four corners at (5,5), (4,5), (5,4) and (4,4). -/
theorem test_sbox_empty_target :
    let t := after (exec (.sbox 5 5 0 0) s3x3)
    t.sc = 4 ∧ changed t = rows [(4, 4, [1, 1]), (5, 4, [1, 1])] := by decide +kernel

/-! ## Text (95_test_vectors.md section 3.8) -/

/-- The toy raster of "AB": two glyphs of 3 × 4 pixels, each followed by an empty column. -/
def toyAB : Raster := { tw := 8, th := 4, cov := (rowMajor 8 4).filter fun p => p.1 % 4 ≠ 3 }

theorem test_fnt :
    let t := after (exec (.fnt [0x66]) { s0 with font := [⟨[0x65], 1⟩, ⟨[0x66], 2⟩, ⟨[0x66], 3⟩] })
    t.result = 1 ∧ t.nt.font = some 1 := by decide
theorem test_fnt_unknown :
    let t := after (exec (.fnt [0x67]) { s0 with font := [⟨[0x66], 2⟩], nt := { NextText.default with font := some 0 } })
    t.result = 0xFFFFFFFF ∧ t.nt.font = none ∧ statusWord t = 5 := by decide
theorem test_falign : (after (exec (.falign 0x8000 0x10000) s0)).nt = { NextText.default with alignX := 32768, alignY := 65536 } := by decide
theorem test_fcolor : (after (exec (.fcolor 0xFFFFFF) { s0 with pal := [0, 0xFFFFFFFF] })).nt.color = 1 := by decide
theorem test_fclear : (after (exec .fclear { s0 with nt := ⟨some 1, 5, 6, 7⟩ })).nt = ⟨none, 0, 0, 0⟩ := by decide
/-- `FCOLOR 0xFFFFFF ; FALIGN 0.5, 0.5 ; FDRAW 8, 8, "AB"`: rows 6 to 9 get 1 at x = 4 to 6 and 8 to 10. -/
theorem test_fdraw_raster :
    let t := drawRaster toyAB (8 * 65536) (8 * 65536) { s0 with nt := ⟨some 0, 32768, 32768, 1⟩ }
    t.sc = 0 ∧ changed t = rows ((List.range 4).flatMap fun k => [(6 + k, 4, [1, 1, 1]), (6 + k, 8, [1, 1, 1])]) := by decide +kernel
theorem test_fdraw_no_font : after (exec (.fdraw 0 0 [0x41]) s0) = s0 := by decide +kernel

/-! ## Tilemaps and the grid (95_test_vectors.md sections 3.3 and 3.4) -/

theorem test_tmap : (after (exec (.tmap [0x54]) { withTm 8 8 s0 with result := 9 })).result = 0 := by decide
theorem test_tmap_unknown :
    let t := after (exec (.tmap [0x74]) (withTm 8 8 s0))
    t.result = 0xFFFFFFFF ∧ statusWord t = 5 := by decide
theorem test_tmode : (after (exec (.tmode 128) s0)).tmode = 128 ∧ (after (exec (.tmode 12) { s0 with tmode := 64 })).tmode = 8 := by decide
theorem test_mmode : (after (exec (.mmode 31) s0)).grid.mode = 2 ∧ (after (exec (.mmode 0xFFFFFFFB) s0)).grid.mode = 1 := by decide
/-- `MFILL 3, 0, 0, 0, 0` under `GRID_OOB = wrap`. -/
theorem test_mfill_wrap :
    (after (exec (.mfill 3 0 0 0 0) { withTm 32 16 s0 with cfg := { cfg16 with gridOob := .wrap } })).grid.cells =
      some ⟨0, 0, 0, 8, 8⟩ :: List.replicate 8 none := by decide
/-- `MMODE 16 ; MFILL 0, 0, 0, 1, 0`: one tile is 2 × 2 cells. -/
theorem test_mfill_mode2 :
    (after (exec (.mfill 0 0 0 1 0) { withTm 32 16 s0 with grid := { s0.grid with mode := 2 } })).grid.cells =
      [some ⟨0, 16, 0, 8, 8⟩, some ⟨0, 24, 0, 8, 8⟩, none, some ⟨0, 16, 8, 8, 8⟩, some ⟨0, 24, 8, 8, 8⟩, none, none, none, none] := by decide
/-- Program P4, command 6: whole cells scrolled away are not stored. -/
theorem test_mfill_scrolled :
    (after (exec (.mfillSpan 1 0 0 0 0 3 1) { s24x8 with grid := { s24x8.grid with sx := 12 } })).grid.cells =
      [some ⟨0, 0, 0, 8, 8⟩, some ⟨0, 8, 0, 8, 8⟩, some ⟨0, 16, 0, 8, 8⟩, none, none, none, none, none, none] := by decide
/-- `MFILL 0, 0, 5, 0, 0`: an unregistered tilemap is logged and fills with `EMPTY`. -/
theorem test_mfill_unknown :
    let t := after (exec (.mfillSpan 0 0 5 0 0 1 1) { withTm 32 16 s0 with
      grid := { s0.grid with cells := List.replicate 9 (some ⟨0, 0, 0, 8, 8⟩) } })
    t.logNf = true ∧ t.grid.cells = none :: List.replicate 8 (some ⟨0, 0, 0, 8, 8⟩) := by decide
theorem test_mscroll : (after (exec (.mscroll 0xFFFFFFFD 12) s0)).grid = { s0.grid with sx := -3, sy := 12 } := by decide
theorem test_mclear :
    (after (exec .mclear { s0 with grid := ⟨List.replicate 9 (some ⟨0, 0, 0, 8, 8⟩), 4, 5, 6⟩ })).grid = ⟨List.replicate 9 none, 4, 5, 6⟩ := by
  decide
/-- Program P4, command 7: cells at x = -4, 4 and 12. -/
theorem test_mdraw :
    let t := after (exec .mdraw { s24x8 with grid :=
      { s24x8.grid with sx := 12, cells := [some ⟨0, 0, 0, 8, 8⟩, some ⟨0, 8, 0, 8, 8⟩, some ⟨0, 16, 0, 8, 8⟩] ++ List.replicate 6 none } })
    t.sc = 0 ∧ changed t = rows ((List.range 8).map fun y => (y, 0, [1, 1, 1, 1, 2, 2, 2, 2, 2, 2, 2, 2, 3, 3, 3, 3])) := by decide +kernel

/-! ## Palette (95_test_vectors.md section 3.1) -/

theorem test_palpush_new :
    let t := after (exec (.palpush 0xFF0000FF) s0)
    t.result = 1 ∧ t.pal = [0, 0xFF0000FF] ∧ t.lut = [0] := by decide
theorem test_palpush_full :
    let t := after (exec (.palpush 0x11111111) { s0 with cfg := { cfg16 with palCap := 4 }, pal := [0, 1, 2, 3], result := 9 })
    t.result = 0 ∧ t.pal = [0, 1, 2, 3] ∧ statusWord t = 9 := by decide
theorem test_palpushrgb : (after (exec (.palpushrgb 0xFF0000) s0)).pal = [0, 0xFF0000FF] := by decide
theorem test_palindex : (after (exec (.palindex 0x000000FF) s0)).result = 0xFFFFFFFF ∧ (after (exec (.palindex 0) s0)).result = 0 := by decide
theorem test_palcolor :
    let s := { s0 with pal := [0, 0x11223344], result := 9 }
    (after (exec (.palcolor 1) s)).result = 0x11223344 ∧ (after (exec (.palcolor 2) s)).result = 0 ∧
      (after (exec (.palcolor 0xFFFFFFFF) s)).result = 0 := by decide
theorem test_palupdate : (after (exec .palupdate { s0 with pal := [0, 0x11223344] })).lut = [0, 0x11223344] := by decide

/-! ## Assets (95_test_vectors.md section 3.2) -/

/-- The 2 × 2 image: column-major (R131), so P, R and Q are pushed in that order. -/
theorem test_loadtm :
    let t := after (exec (.loadtm 0 2 2 8 [0x42]) sPQRP)
    t.result = 0 ∧ t.aux = 3 ∧ t.pal = [0, 0x50505050, 0x52525252, 0x51515151] ∧ t.tm = [⟨[0x42], 0, 2, 2, 8⟩] ∧
      [t.texByte 2, t.texByte 6, t.texByte 10, t.texByte 14] = [1, 3, 2, 1] := by decide +kernel
/-- `PAL_CAP = 2`; and the cell size 12, which falls back to 8. -/
theorem test_loadtm_overflow :
    let t := after (exec (.loadtm 0 2 1 12 [0x41]) { sRedBlue with cfg := { cfg16 with palCap := 2 } })
    t.palOvf = true ∧ t.aux = 2 ∧ t.tm = [⟨[0x41], 0, 2, 1, 8⟩] ∧ t.texmem = [(0, 0), (1, 0), (2, 1), (3, 255), (4, 0), (5, 0), (6, 0), (7, 255)] := by decide +kernel
theorem test_loadfnt : (after (exec (.loadfnt 4 [0x70]) { s0 with font := [⟨[0x70], 3⟩] })).result = 1 := by decide
theorem test_loadfnt_full :
    after (exec (.loadfnt 1 [0x78]) { s0 with font := [⟨[0x70], 3⟩, ⟨[0x70], 4⟩] }) =
      { s0 with font := [⟨[0x70], 3⟩, ⟨[0x70], 4⟩], result := 0xFFFFFFFF } := by decide +kernel

/-! ## The host's side (95_test_vectors.md sections 3.9 and 3.10) -/

theorem test_status_write :
    statusWord (statusWrite 2 { s0 with errIll := true, logNf := true }) = 5 ∧
      statusWord (statusWrite 0xFFFFFFFF { s0 with errIll := true, logNf := true, palOvf := true }) = 1 := by decide
/-- R29: `ERR_ILL` is bit 1, `DRAW_EN` bit 0. -/
theorem test_register_reads :
    busRead 0x1008 4 { s0 with errIll := true } = .done 3 { s0 with errIll := true } ∧ busRead 0x1010 4 s0 = .done 1 s0 ∧ busRead 0x1034 4 s0 = .done 1 s0 ∧ busRead 0x1038 4 s0 = .done 0 s0 ∧
      busRead 0x1100 4 s0 = .refused .notThisBlock ∧ busRead 0x1002 2 s0 = .refused .registerAccess := by decide +kernel
theorem test_texture_port :
    texPortRead 0 4 sRedBlue = .done 0xFF0000FF sRedBlue ∧ texPortRead 6 2 sRedBlue = .done 0xFFFF sRedBlue ∧
      texPortRead 4093 4 sRedBlue = .refused .texmemAccess := by decide +kernel

/-! ## Witnesses: what meets the hypotheses of the statements

Statements whose only hypothesis is `DRAW_EN = 1` (ClearFillsFramebuffer, CameraAndTileMode, SpriteSetters, FlipAndScaleCommute, TextSetters,
GridSetters, MdrawPaintsGrid's first clause) share `witness_draw_enabled`. A hypothesis about the platform's raster or about
`Config.rotSample` holds of whatever the platform answers, so no witness can name that answer. -/

theorem witness_draw_enabled : s0.drawEn = true ∧ s4x2.drawEn = true := by decide

/-- A state that meets every invariant, with an image, a font, a sprite, a text and a grid cell. -/
def sAll : State :=
  { s4x2 with
    font := [⟨[0x66], 1⟩]
    nt := { NextText.default with font := some 0 }
    grid := { s0.grid with cells := some ⟨0, 0, 0, 8, 8⟩ :: List.replicate 8 none }
    asm := [0x60010000, 5] }

theorem witness_frames : FramesOk s4x2 ∧ FramesOk s3x3 ∧ FramesOk s24x8 ∧ FramesOk sAll := by
  unfold FramesOk; decide +kernel
theorem witness_palette : PaletteOk s0 ∧ PaletteOk sRedBlue ∧ PaletteOk sAll := by unfold PaletteOk; decide +kernel
theorem witness_texmem : TexmemOk sAll := by unfold TexmemOk; decide +kernel
theorem witness_registries : RegistriesOk sAll := by unfold RegistriesOk TmEntry.ok tileSizes; decide +kernel
theorem witness_view : View.inside s4x2 ⟨0, 0, 0, 4, 2⟩ ∧ View.inside s3x3 ⟨0, 0, 0, 3, 3⟩ ∧ View.inside sAll ⟨0, 0, 0, 4, 2⟩ :=
  ⟨⟨_, rfl, by decide⟩, ⟨_, rfl, by decide⟩, ⟨_, rfl, by decide⟩⟩
theorem witness_attributes : AttributesOk sAll := by
  refine ⟨fun v h => ?_, fun k h => ?_, by unfold isS32; decide⟩
  · cases h; exact witness_view.2.2
  · cases h; decide
theorem witness_grid : GridOk s24x8 ∧ GridOk sAll := by
  refine ⟨⟨by decide, by decide, by unfold isS32; decide, by unfold isS32; decide, fun v h => ?_⟩,
    ⟨by decide, by decide, by unfold isS32; decide, by unfold isS32; decide, fun v h => ?_⟩⟩
  · exact absurd (show some v ∈ List.replicate 9 (none : TexRef) from h) (by simp)
  · have h : some v ∈ some ⟨0, 0, 0, 8, 8⟩ :: List.replicate 8 (none : TexRef) := h
    obtain rfl : v = ⟨0, 0, 0, 8, 8⟩ := by simpa using h
    decide
theorem witness_tmode : TmodeOk sAll := by unfold TmodeOk tileSizes; decide
theorem witness_stream : StreamOk sAll := by
  refine ⟨by decide, fun hdr args h => ?_⟩
  cases h; decide

/-- StepKeepsPaletteBudgetTexmem, StepKeepsRegistriesAndAttributes, StepKeepsShapes, StepKeepsInvariants, HostAccessKeepsInvariants,
StepOnlyExtends: every premise holds of `sAll`, whose next step is a `PALPUSH`. -/
theorem witness_inv : sAll.Inv ∧ ∃ t, step sAll = .next t :=
  ⟨⟨by decide, witness_palette.2.2, by unfold BudgetOk; decide, witness_frames.2.2.2, witness_texmem, witness_registries, witness_attributes,
    witness_grid.2, witness_tmode, witness_stream⟩, _, rfl⟩

theorem witness_decode :
    (Instr.tmap []).wf = true ∧ (Instr.fnt (List.replicate 1016 0)).wf = true ∧ decode [0x40010000, 0] = .ok (.tmap []) :=
  ⟨by decide, test_wf_fnt.1, rfl⟩
/-- LegalCommandsExactly and ReservedOpcodesRefused: a whole command with no argument and one with 255. -/
theorem witness_whole_commands :
    ([] : List Word).length = hdrNw 0x04000000 ∧ (List.replicate 255 (0 : Word)).length = hdrNw 0xFFFF0000 ∧
      [0, 0, (0 : Word)].length = hdrNw 0x20030000 := by decide +kernel
theorem witness_string : ([0x656C6974, 0x00000073] : List Word).length = strWords 5 ∧ ([] : List Word).length = strWords 0 := by decide
/-- StringBytesPackedLittleEndian: the empty string, and the longest one each row has room for. -/
theorem witness_string_rows :
    ((0 : Nat) : ℤ) = ⌈((0 : Word).toNat : ℚ) / 4⌉ ∧ ((254 : Nat) : ℤ) = ⌈((1016 : Word).toNat : ℚ) / 4⌉ ∧ 1 + 254 ≤ 255 ∧
      ((253 : Nat) : ℤ) = ⌈((1012 : Word).toNat : ℚ) / 4⌉ ∧ 2 + 253 ≤ 255 ∧ ((252 : Nat) : ℤ) = ⌈((1008 : Word).toNat : ℚ) / 4⌉ ∧
      3 + 252 ≤ 255 ∧ ((250 : Nat) : ℤ) = ⌈((1000 : Word).toNat : ℚ) / 4⌉ ∧ 5 + 250 ≤ 255 := by decide +kernel
theorem witness_ready :
    commandReady { s0 with asm := [0x54000000] } = true ∧ decode [0x54000000] = .ok .mdraw ∧
      commandReady { s0 with asm := [0x54000001] } = true ∧ decode [0x54000001] = .error .reservedBits := ⟨rfl, rfl, rfl, rfl⟩
theorem witness_not_ready :
    commandReady s0 = false ∧ s0.fifo = [] ∧ commandReady { s0 with asm := [0x26020000, 0], fifo := [7] } = false := by decide
theorem witness_stream_words :
    ([0x26020000, 1, 2, 0x54000000] : List Word) = 0x26020000 :: [1, 2] ++ [0x54000000] ∧ [1, (2 : Word)].length = hdrNw 0x26020000 ∧
      ([0x54000000] : List Word) = 0x54000000 :: [] ++ [] ∧ ([] : List Word).length = hdrNw 0x54000000 ∧ s0.asm = [] := by decide
theorem witness_gated : isGated .mdraw = true ∧ (State.resetWith cfg16 0).drawEn = false := by decide
theorem witness_ungated :
    isGated .postrender = false ∧ (∀ b, Instr.postrender ≠ .drawen b) ∧ ∃ t, exec .postrender s0 = .next t := by
  exact ⟨rfl, nofun, _, rfl⟩
/-- PostrenderPresentsFrame: the last entry of the lookup table. -/
theorem witness_postrender :
    let s := { s0 with lut := [0, 5, 6], fb := List.replicate 256 2 }
    s.fb[255]? = some 2 ∧ s.lut[(2 : Byte).toNat]? = some 6 := by decide
/-- StileSelectsTile: an id below and one above the registry; the last tile of a 20 × 12 image and the first one past it; a rectangle that is
left and one that is empty. -/
theorem witness_stile :
    ¬ (0 ≤ intOf 0xFFFFFFFF ∧ intOf 0xFFFFFFFF < (withTm 20 12 s0).tm.length) ∧ ¬ (0 ≤ intOf 1 ∧ intOf 1 < (withTm 20 12 s0).tm.length) ∧
      0 ≤ intOf 0 ∧ (withTm 20 12 s0).tm[(intOf 0).toNat]? = some ⟨[0x54], 0, 20, 12, 8⟩ ∧
      (0 ≤ intOf 2 ∧ intOf 2 < ⌈((20 : Nat) : ℚ) / (8 : Nat)⌉ ∧ 0 ≤ intOf 1 ∧ intOf 1 < ⌈((12 : Nat) : ℚ) / (8 : Nat)⌉) ∧
      ¬ (0 ≤ intOf 3 ∧ intOf 3 < ⌈((20 : Nat) : ℚ) / (8 : Nat)⌉) := by
  decide +kernel
/-- SdrawDroppedOrEmpty, SdrawFrame, BudgetCountsSdraws: the last draw of the budget and the first beyond it. -/
theorem witness_budget :
    cfg16.numSprites ≤ { s0 with sc := 4 }.sc ∧ { s0 with sc := 3 }.sc < cfg16.numSprites ∧ { s0 with sc := 3 }.ns.tex = none ∧
      { s0 with sc := 4 }.sc ≤ cfg16.numSprites := by decide
/-- SdrawPaintsSprite: each multiple of 90 degrees, below 0 and past 360 too. -/
theorem witness_sdraw :
    s4x2.sc < s4x2.cfg.numSprites ∧ s4x2.raced = [] ∧ s4x2.ns.tex = some ⟨0, 0, 0, 4, 2⟩ ∧ s4x2.ns.scaleH ≠ 0 ∧ s4x2.ns.scaleV ≠ 0 ∧
      ∀ d ∈ ([0, 90, 180, 270, -90, 450] : List Int), (turned (rat (d * 65536)) 0 0).isSome = true := by decide +kernel
/-- SdrawAtOtherAngles: 45 degrees, and the query of pixel (3, 4) for a sprite drawn at (1, 2). -/
theorem witness_sdraw_angle :
    let s := { s4x2 with ns := { s4x2.ns with rot := 45 * 65536 } }
    let q : RotQuery := { t := 45 * 65536, ex := 65536, ey := 65536, ox := 0, oy := 0, qx := 65536, qy := 131072, vw := 4, vh := 2, px := 3, py := 4 }
    turned (rat s.ns.rot) 0 0 = none ∧ rat q.t = rat s.ns.rot - 360 * ⌊rat s.ns.rot / 360⌋ ∧ rat q.ex = effScaleH s.ns ∧
      rat q.ey = effScaleV s.ns ∧ q.ox = s.ns.ox ∧ q.oy = s.ns.oy ∧ rat q.qx = screenX s (fixOf 0x10000) ∧
      rat q.qy = screenY s (fixOf 0x20000) := by decide +kernel
theorem witness_sbox : s3x3.raced = [] ∧ s3x3.ns.tex = some ⟨0, 0, 0, 3, 3⟩ := by decide
/-- SboxFillsRectangle: the smallest box, 2 × 2, with exactly its four draws left. -/
theorem witness_sbox_full :
    let s := { s3x3 with sc := 16 }
    2 * ((3 / 3 : Nat) : Int) ≤ intOf 2 ∧ s.sc + listLength (intOf 2) (intOf 2) (3 / 3) (3 / 3) ≤ s.cfg.numSprites := by decide +kernel
theorem witness_sbox_degenerate :
    (∀ v, s0.ns.tex = some v → v.vw < 3 ∨ v.vh < 3) ∧
      (∀ v, ({ s0 with ns := { s0.ns with tex := some ⟨0, 0, 0, 3, 2⟩ } } : State).ns.tex = some v → v.vw < 3 ∨ v.vh < 3) := by
  refine ⟨nofun, fun v h => ?_⟩
  cases h; decide
/-- FntSelectsFont: the second of three fonts is the lowest of its name; no font of another name. -/
theorem witness_fnt :
    let s := { s0 with font := [⟨[0x65], 1⟩, ⟨[0x66], 2⟩, ⟨[0x66], 3⟩] }
    s.font[1]? = some ⟨[0x66], 2⟩ ∧ (∀ (j : Nat) d, j < 1 → s.font[j]? = some d → d.name ≠ [0x66]) ∧ ∀ e ∈ s.font, e.name ≠ [0x67] := by
  refine ⟨rfl, fun j d hj h => ?_, by decide⟩
  obtain rfl : j = 0 := by omega
  cases h; decide
theorem witness_fdraw : s0.nt.font = none ∧ sAll.nt.font = some 0 ∧ sAll.font[0]? = some ⟨[0x66], 1⟩ := by decide
theorem witness_tmap :
    (withTm 8 8 s0).tm[0]? = some ⟨[0x54], 0, 8, 8, 8⟩ ∧ (∀ (j : Nat) d, j < 0 → (withTm 8 8 s0).tm[j]? = some d → d.name ≠ [0x54]) ∧
      ∀ e ∈ (withTm 8 8 s0).tm, e.name ≠ [0x74] := ⟨rfl, nofun, by decide⟩
theorem witness_mfill :
    s24x8.grid.cells.length = s24x8.cfg.gw * s24x8.cfg.gh ∧ s24x8.cfg.gridOob = .drop ∧ s24x8.raced = [] := by decide
/-- MdrawPaintsGrid: the last pixel of the first cell lies in its cell's image, at the texel the formula gives. -/
theorem witness_mdraw : texelIndex s24x8 ⟨0, 0, 0, 8, 8⟩ (7 : Nat) (7 : Nat) = some 1 := by decide +kernel
/-- PalpushReturnsIndex and PaletteReadsAndUpdate: a known colour, a new one with one entry left, a new one with none; the last entry of the
palette, and one past it. -/
theorem witness_palpush :
    let s := { s0 with cfg := { cfg16 with palCap := 4 }, pal := [0, 1, 2] }
    let f := { s0 with cfg := { cfg16 with palCap := 3 }, pal := [0, 1, 2] }
    (s.pal[2]? = some 2 ∧ ∀ j < 2, s.pal[j]? ≠ some 2) ∧ (5 ∉ s.pal ∧ s.pal.length < s.cfg.palCap) ∧
      (5 ∉ f.pal ∧ f.cfg.palCap ≤ f.pal.length) ∧ (0 ≤ intOf 2 ∧ s.pal[(intOf 2).toNat]? = some 2) ∧ (s.pal.length : Int) ≤ intOf 3 ∧
      intOf 0xFFFFFFFF < 0 := by decide
theorem witness_push_twice : s0.cfg.wf = true ∧ PaletteOk s0 := ⟨by decide, witness_palette.1⟩
/-- RejectedLoad: each check just missed. -/
theorem witness_rejected :
    intOf 0xFFFFFFFC < 0 ∧ intOf 2 % 4 ≠ 0 ∧ intOf 0 < 1 ∧ (s0.cfg.texmemBytes : Int) < intOf 4092 + 4 * intOf 2 * intOf 1 ∧
      s0.cfg.tmMax ≤ ({ s0 with tm := List.replicate 4 ⟨[], 0, 1, 1, 8⟩ } : State).tm.length := by decide
/-- AcceptedLoadFrame: an image that ends where texture memory ends, into the last place of the registry. -/
theorem witness_accepted :
    0 ≤ intOf 4088 ∧ intOf 4088 % 4 = 0 ∧ 1 ≤ intOf 2 ∧ 1 ≤ intOf 1 ∧ intOf 4088 + 4 * intOf 2 * intOf 1 ≤ s0.cfg.texmemBytes ∧
      ({ s0 with tm := List.replicate 3 ⟨[], 0, 1, 1, 8⟩ } : State).tm.length < s0.cfg.tmMax := by decide
/-- LoadPalettizesImage and PaletteRoundTrip: R133's example, without overflow. -/
theorem witness_palettized :
    sRedBlue.tm.length < sRedBlue.cfg.tmMax ∧ sRedBlue.raced = [] ∧ sRedBlue.cfg.wf = true ∧ PaletteOk sRedBlue ∧ sRedBlue.palOvf = false ∧
      ∃ t, exec (.loadtm 0 2 1 8 [0x41]) { sRedBlue with palOvf := false } = .next t ∧ t.palOvf = false :=
  ⟨by decide, rfl, by decide, witness_palette.2.1, rfl, _, rfl, by decide +kernel⟩
/-- The same over a registered image, whose first pixel the load shares. -/
theorem witness_palettized_overlap :
    let s := withTm 1 1 sRedBlue
    s.tm = [⟨[0x54], 0, 1, 1, 8⟩] ∧ s.tm.length < s.cfg.tmMax ∧ s.raced = [] ∧ s.cfg.wf = true ∧ PaletteOk s ∧
      ∃ t, exec (.loadtm 0 2 1 8 [0x41]) { s with palOvf := false } = .next t ∧ t.palOvf = false :=
  ⟨rfl, by decide, rfl, by decide, witness_palette.2.1, _, rfl, by decide +kernel⟩
theorem witness_loadfnt :
    ({ s0 with font := [⟨[0x70], 3⟩] } : State).font.length < s0.cfg.fontMax ∧
      s0.cfg.fontMax ≤ ({ s0 with font := [⟨[0x70], 3⟩, ⟨[0x70], 3⟩] } : State).font.length := by decide
theorem witness_exec : ∃ t, exec (.palpush 5) s0 = .next t := ⟨_, rfl⟩
/-- RegisterWindowReads, StatusWriteClearsOnes, RegisterPortProtocol: nothing pending; a FIFO with one place left and a full one; a command word
pending; the last register offset; the first and the last byte of the window. -/
theorem witness_registers :
    s0.asm = [] ∧ s0.fifo = [] ∧ ({ s0 with fifo := List.replicate 7 0 } : State).fifo.length < s0.cfg.fifoDepth ∧
      s0.cfg.fifoDepth ≤ ({ s0 with fifo := List.replicate 8 0 } : State).fifo.length ∧ ({ s0 with fifo := [0] } : State).fifo ≠ [] ∧
      0xFC % 4 = 0 ∧ 4 ≤ 0xFC ∧ 0x38 ≤ 4 * 63 ∧ 4 * 63 ≤ 0xFC ∧ 2 % 4 ≠ 0 ∧
      0 < 256 ∧ 255 < 256 := by decide
/-- TexturePortReadsBack: the last word, the last half-word; a word past the end, a misaligned half-word. -/
theorem witness_texture_port :
    (4092 % 4 = 0 ∧ 4092 + 4 ≤ s0.cfg.texmemBytes) ∧ (4094 % 2 = 0 ∧ 4094 + 2 ≤ s0.cfg.texmemBytes) ∧
      s0.cfg.texmemBytes < 4096 + 4 ∧ 1 % 2 ≠ 0 := by decide
theorem witness_race : s0.raced = [] ∧ ({ s0 with fifo := [0] } : State).raced = [] := by decide

end Sys2Proof.Tests
end

section
/-! SUPPORT. Everything a command can do to the state, said once: one constructor a kind of change (`exec_effect` below ties it to `exec`). -/

namespace Sys2Proof.Machine

/-- A view that a grid cell may hold: a `G`-pixel crop of a registered image (R165). -/
def IsGridCell (s : State) (v : View) : Prop := v.vw = gridCell ∧ v.vh = gridCell ∧ v.img < s.tm.length

/-- The registry entry an accepted `LOADTM` appends (R133). -/
def loadEntry (base w h cell : Word) (name : Bytes) : TmEntry where
  name := name
  base := (intOf base).toNat
  w := (intOf w).toNat
  h := (intOf h).toNat
  cell := tileSizeOr (intOf cell)

/-- The bytes of the image that a `LOADTM` names (R61). -/
def loadBytes (base w h : Word) (a : Nat) : Prop :=
  (intOf base).toNat ≤ a ∧ a < (intOf base).toNat + 4 * (intOf w).toNat * (intOf h).toNat

/-- `Effect s i t`: `t` is `s` after a change that command `i` can make. One constructor per kind of change; a value of which no invariant
depends (a count, a result, a log bit) is left open. `exec_effect` ties it to `exec`. -/
inductive Effect (s : State) : Instr → State → Prop
  /-- nothing changes: `NOP`, `PRERENDER`, and a gated or dropped command -/
  | idle (i : Instr) : Effect s i s
  | drawen (b : Bool) : Effect s (.drawen b) (s.setDrawEn b)
  | postrender (img : List Word) (k : Nat) (himg : img.length = s.fb.length) :
      Effect s .postrender (((s.addPresent img).setDraws k).setSc 0)
  | clear (c : BitVec 24) (v : Byte) : Effect s (.clear c) (s.setFb (List.replicate (s.cfg.swidth * s.cfg.sheight) v))
  | camera (x y : Word) : Effect s (.camera x y) (s.setCam (fixOf x) (fixOf y))
  /-- `STILE` -/
  | tile {i : Instr} (tex : TexRef) (l : Bool) (hi : i.opcode = 0x20) (htex : ∀ v, tex = some v → View.inside s v) :
      Effect s i { s with logNf := l, ns := { s.ns with tex := tex } }
  | sorigin (x y : Word) : Effect s (.sorigin x y) (s.setNs { s.ns with ox := fixOf x, oy := fixOf y })
  | sflip (h v : Bool) : Effect s (.sflip h v) (s.setNs { s.ns with flipH := h, flipV := v })
  | sscale (h v : Word) : Effect s (.sscale h v) (s.setNs { s.ns with scaleH := fixOf h, scaleV := fixOf v })
  | srot (deg : Word) : Effect s (.srot deg) (s.setNs { s.ns with rot := fixOf deg })
  | sclear : Effect s .sclear (s.setNs .default)
  /-- `SDRAW` and `SBOX`, counted within the budget -/
  | drawn {i : Instr} (fb : List Byte) (k n : Nat) (hi : i.opcode = 0x26 ∨ i.opcode = 0x27) (hfb : fb.length = s.fb.length)
      (hn : BudgetOk s → n ≤ s.cfg.numSprites) : Effect s i (((s.setFb fb).setDraws k).setSc n)
  /-- `FDRAW` and `MDRAW`, which have no budget -/
  | painted {i : Instr} (fb : List Byte) (k : Nat) (hi : i.opcode = 0x34 ∨ i.opcode = 0x54) (hfb : fb.length = s.fb.length) :
      Effect s i ((s.setFb fb).setDraws k)
  | fnt (name : Bytes) (f : Option Nat) (l : Bool) (r : Int) (hf : ∀ k, f = some k → k < s.font.length) :
      Effect s (.fnt name) ({ s with logNf := l, nt := { s.nt with font := f } }.setResult r)
  | falign (x y : Word) : Effect s (.falign x y) (s.setNt { s.nt with alignX := fixOf x, alignY := fixOf y })
  | fcolor (c : BitVec 24) (v : Byte) : Effect s (.fcolor c) (s.setNt { s.nt with color := v })
  | fclear : Effect s .fclear (s.setNt .default)
  | tmap (name : Bytes) (l : Bool) (r : Int) : Effect s (.tmap name) ({ s with logNf := l }.setResult r)
  | tmode (v : Word) : Effect s (.tmode v) (s.setTmode (tileSizeOr (intOf v)))
  | mmode (v : Word) : Effect s (.mmode v) (s.setGrid { s.grid with mode := gridMode (intOf v) })
  /-- `MFILL` -/
  | mfill {i : Instr} (cells : List TexRef) (l : Bool) (hi : i.opcode = 0x51) (hlen : cells.length = s.grid.cells.length)
      (hcells : ∀ v, some v ∈ cells → some v ∈ s.grid.cells ∨ IsGridCell s v) :
      Effect s i { s with logNf := l, grid := { s.grid with cells := cells } }
  | mscroll (x y : Word) : Effect s (.mscroll x y) (s.setGrid { s.grid with sx := intOf x, sy := intOf y })
  | mclear : Effect s .mclear (s.setGrid { s.grid with cells := List.replicate (s.cfg.gw * s.cfg.gh) none })
  /-- `PALPUSH` and `PALPUSHRGB` -/
  | palpush {i : Instr} (l : List Word) (o : Bool) (r : Int) (hi : i.opcode = 0x60 ∨ i.opcode = 0x61)
      (hpal : Palettized (fun _ => False) s { s with pal := s.pal ++ l, palOvf := o }) :
      Effect s i ({ s with pal := s.pal ++ l, palOvf := o }.setResult r)
  /-- `RESULT` alone: `PALINDEX`, `PALCOLOR`, and a rejected load -/
  | answer {i : Instr} (r : Int) (hi : i.opcode = 0x62 ∨ i.opcode = 0x63 ∨ i.opcode = 0x70 ∨ i.opcode = 0x71) : Effect s i (s.setResult r)
  | palupdate : Effect s .palupdate (s.setLut s.pal)
  | loadtm (base w h cell : Word) (name : Bytes) (l : List Word) (o : Bool) (m : Memory) (k : Nat) (r : Int) (a : Nat)
      (hok : loadOk (intOf base) (intOf w) (intOf h) s = true)
      (hpal : Palettized (loadBytes base w h) s { s with pal := s.pal ++ l, palOvf := o, texmem := m, draws := k }) :
      Effect s (.loadtm base w h cell name)
        (({ s with pal := s.pal ++ l, palOvf := o, texmem := m, draws := k, tm := s.tm ++ [loadEntry base w h cell name] }.setResult r).setAux a)
  | loadfnt (fid : Word) (name : Bytes) (r : Int) (hroom : s.font.length < s.cfg.fontMax) :
      Effect s (.loadfnt fid name) ((s.setFont (s.font ++ [{ name := name, fid := intOf fid }])).setResult r)

end Sys2Proof.Machine
end

section
/-! SUPPORT. What the operations of the commands give: operands in range, views inside their images, legal grid cells, palettizing. -/

namespace Sys2Proof.Machine

/-! ## Values of operands -/

theorem isS32_toInt (w : Word) : isS32 w.toInt := ⟨BitVec.le_toInt w, BitVec.toInt_lt⟩

theorem isS32_zero : isS32 0 := by norm_num [isS32]

theorem isS32_fixOne : isS32 fixOne := by norm_num [isS32, fixOne]

theorem tileSizeOr_mem (v : Int) : (tileSizeOr v : Int) ∈ tileSizes := by
  unfold tileSizeOr
  split
  · rename_i h
    have : 0 ≤ v := by simp only [tileSizes, List.mem_cons, List.not_mem_nil, or_false] at h; omega
    rwa [Int.toNat_of_nonneg this]
  · decide

theorem gridMode_mem (v : Int) : gridMode v ∈ [1, 2, 4, 8] := by
  unfold gridMode
  split_ifs <;> decide

/-! ## Views -/

theorem tileView_inside {s : State} {k : Nat} {e : TmEntry} {i j : Int} {w h : Fix} {cs : Nat} {v : View} (he : s.tm[k]? = some e)
    (hi : 0 ≤ i) (hj : 0 ≤ j) (hv : tileView k e i j w h cs = some v) : View.inside s v := by
  have hx : 0 ≤ i * cs := Int.mul_nonneg hi (Int.natCast_nonneg cs)
  have hy : 0 ≤ j * cs := Int.mul_nonneg hj (Int.natCast_nonneg cs)
  unfold tileView at hv
  dsimp only at hv
  split at hv
  · cases hv
  · cases hv
    refine ⟨e, he, hx, hy, ?_⟩
    dsimp only
    omega

/-- A tile got by `GetTile` lies inside its image (R146). -/
theorem getTile_inside {k i j : Int} {w h : Fix} {cs : Nat} {s : State} {v : View} (hv : (getTile k i j w h cs s).1 = some v) :
    View.inside s v := by
  unfold getTile at hv
  split at hv
  · cases hv
  · rename_i e he
    split at hv
    · rename_i hr
      obtain ⟨hi, -, hj, -⟩ := hr
      have hk : s.tm[k.toNat]? = some e := by
        unfold tmAt at he
        split at he
        · exact he
        · cases he
      exact tileView_inside hk hi hj hv
    · cases hv

/-- A registered tilemap's image number is below the number of images. -/
theorem lt_of_tmAt_isSome {k : Int} {s : State} (h : (tmAt k s).isSome = true) : k.toNat < s.tm.length := by
  unfold tmAt at h
  split at h
  · simpa using h
  · cases h

/-! ## The grid -/

/-- `t` is `s` after writes of legal views or `EMPTY` to cells of the grid. -/
def CellsOnly (s t : State) : Prop :=
  ∃ cells, t = s.setGrid { s.grid with cells := cells } ∧ cells.length = s.grid.cells.length ∧
    ∀ v, some v ∈ cells → some v ∈ s.grid.cells ∨ IsGridCell s v

theorem CellsOnly.refl (s : State) : CellsOnly s s := ⟨s.grid.cells, rfl, rfl, fun _ h => .inl h⟩

theorem CellsOnly.trans {s t u : State} (h : CellsOnly s t) (g : CellsOnly t u) : CellsOnly s u := by
  obtain ⟨c, rfl, hl, hc⟩ := h
  obtain ⟨d, rfl, gl, gc⟩ := g
  exact ⟨d, rfl, gl.trans hl, fun v hv => (gc v hv).elim (hc v) .inr⟩

theorem CellsOnly.gridPut {gx gy : Int} {t : TexRef} {s : State} (ht : ∀ v, t = some v → IsGridCell s v) :
    CellsOnly s (gridPut gx gy t s) := by
  obtain ⟨cells, e, hl, hc⟩ := gridPut_state gx gy t s
  exact ⟨cells, e, hl, fun v hv => (hc _ hv).imp id fun h => ht v h.symm⟩

theorem CellsOnly.fillCell {x y id i j : Int} {valid : Bool} {f : FillStep} {s : State} (hid : valid = true → id.toNat < s.tm.length) :
    CellsOnly s (fillCell x y id i j valid f s) := by
  refine CellsOnly.gridPut fun v hv => ?_
  split at hv
  · rename_i h
    cases hv
    exact ⟨rfl, rfl, hid h⟩
  · cases hv

/-- `MFILL` writes legal cells, and logs an unregistered tilemap (R165, R173). -/
theorem fill_cellsOnly (x y id i j w h : Int) (s : State) : ∃ l, CellsOnly { s with logNf := l } (fill x y id i j w h s) := by
  obtain ⟨l, hl⟩ : ∃ l, (if (tmAt id s).isSome = true then s else logNotFound s) = { s with logNf := l } := by
    split
    · exact ⟨s.logNf, rfl⟩
    · exact ⟨true, rfl⟩
  refine ⟨l, ?_⟩
  unfold fill
  dsimp only
  rw [hl]
  refine List.foldlRecOn (motive := CellsOnly { s with logNf := l }) _ _ (CellsOnly.refl _) fun t ht f _ => ht.trans (CellsOnly.fillCell fun hv => ?_)
  obtain ⟨c, rfl, -⟩ := ht
  exact lt_of_tmAt_isSome hv

/-! ## Presenting -/

theorem lutImage_length (lut : List Word) (vs : List Byte) (k : Nat) : (lutImage lut vs k).1.length = vs.length := by
  induction vs generalizing k with
  | nil => rfl
  | cons v vs ih => exact congrArg (· + 1) (ih _)

/-! ## The palettizer's invariants -/

section Palettized
variable {A : Nat → Prop} {s t : State}

theorem Palettized.paletteOk (h : Palettized A s t) (hp : PaletteOk s) : PaletteOk t := by
  obtain ⟨l, o, m, k, rfl, -, hn, hc, -⟩ := h
  obtain ⟨h0, hd, hl, hz, hpre⟩ := hp
  exact ⟨by simp [List.head?_append, h0], hn hd, hc hl, hz, hpre.trans (List.prefix_append _ _)⟩

theorem Palettized.texmemOk (h : Palettized A s t) (hA : ∀ a, A a → a < s.cfg.texmemBytes) (ht : TexmemOk s) : TexmemOk t := by
  obtain ⟨l, o, m, k, rfl, -, -, -, hw, hm, -⟩ := h
  exact ⟨hw ht.1, fun c hc => (hm c hc).elim (hA _) (ht.2 c)⟩

theorem Palettized.texByte (h : Palettized A s t) {a : Nat} (ha : ¬ A a) : t.texByte a = s.texByte a := by
  obtain ⟨l, o, m, k, -, -, -, -, -, -, hb⟩ := h
  exact hb a ha

end Palettized

/-- What R133's checks say of the operands. -/
theorem loadOk_iff {base w h : Int} {s : State} :
    loadOk base w h s = true ↔
      0 ≤ base ∧ base % 4 = 0 ∧ 1 ≤ w ∧ 1 ≤ h ∧ base + 4 * w * h ≤ s.cfg.texmemBytes ∧ s.tm.length < s.cfg.tmMax := by
  simp [loadOk, and_assoc]

/-- The operands of an accepted load are what their natural numbers are (R133). -/
theorem loadOk_toNat {base w h : Int} {s : State} (hok : loadOk base w h s = true) :
    (base.toNat : Int) = base ∧ (w.toNat : Int) = w ∧ (h.toNat : Int) = h := by
  obtain ⟨hb, -, hw, hh, -⟩ := loadOk_iff.mp hok
  omega

end Sys2Proof.Machine
end

section
/-! SUPPORT. Each command ends in a next state, by an effect of its own. -/

namespace Sys2Proof.Machine

section Effect
variable {s t : State} {i : Instr}

/-- R101: a gated command has its effect or none. -/
theorem Effect.gated {f : State → State} (h : Effect s i (f s)) : Effect s i (gated f s) := by
  unfold Machine.gated
  split
  · exact h
  · exact .idle i

theorem Effect.present : Effect s .postrender ((present s).setSc 0) := .postrender _ _ (lutImage_length s.lut s.fb s.draws)

theorem Effect.setTile {k x y : Int} {w h : Fix} (hi : i.opcode = 0x20) : Effect s i (setTile k x y w h s) := by
  unfold Machine.setTile
  dsimp only
  have htex : ∀ v, (getTile k x y w h s.tmode s).1 = some v → View.inside s v := fun v => getTile_inside
  rcases getTile_state k x y w h s.tmode s with e | e <;> rw [e]
  · exact .tile _ s.logNf hi htex
  · exact .tile _ true hi htex

theorem Effect.drawSprite {x y : Fix} (hi : i.opcode = 0x26 ∨ i.opcode = 0x27) : Effect s i (drawSprite x y s) := by
  unfold Machine.drawSprite
  split
  · rename_i hlt
    obtain ⟨fb, k, e, hfb⟩ := spriteRaster_picture s.ns.tex (placement x y s) s
    rw [e]
    exact .drawn fb k (s.sc + 1) hi hfb fun _ => hlt
  · exact .idle i

theorem Effect.drawBox {x y w h : Int} (hi : i.opcode = 0x26 ∨ i.opcode = 0x27) : Effect s i (drawBox x y w h s) := by
  obtain ⟨hn, fb, k, e, hfb⟩ := nineSlice_spec s.ns.tex x y w h (s.cfg.numSprites - s.sc) s
  unfold Machine.drawBox
  dsimp only
  rw [e]
  refine .drawn fb k _ hi hfb fun hb => ?_
  unfold BudgetOk at hb
  simp only [State.setDraws_sc, State.setFb_sc]
  omega

theorem Effect.ofPicture (hi : i.opcode = 0x34 ∨ i.opcode = 0x54) (h : PictureOnly s t) : Effect s i t := by
  obtain ⟨fb, k, rfl, hfb⟩ := h
  exact .painted fb k hi hfb

theorem execFnt_effect (name : Bytes) : ∃ t, execFnt name s = .next t ∧ Effect s (.fnt name) t := by
  refine ⟨_, rfl, ?_⟩
  split
  · rename_i k hk
    refine .fnt name (some k) s.logNf k fun j hj => ?_
    cases hj
    exact (List.findIdx?_eq_some_iff_getElem.mp hk).1
  · exact .fnt name none true (-1) nofun

theorem execTmap_effect (name : Bytes) : ∃ t, execTmap name s = .next t ∧ Effect s (.tmap name) t := by
  refine ⟨_, rfl, ?_⟩
  split
  · exact .tmap name s.logNf _
  · exact .tmap name true (-1)

theorem Effect.fill {x y k c r w h : Int} (hi : i.opcode = 0x51) : Effect s i (fill x y k c r w h s) := by
  obtain ⟨l, cells, e, hlen, hcells⟩ := fill_cellsOnly x y k c r w h s
  rw [e]
  exact .mfill cells l hi hlen hcells

theorem Effect.pushResult {c : Word} (hi : i.opcode = 0x60 ∨ i.opcode = 0x61) : Effect s i (pushResult c s) := by
  have hpal := Palettized.palPush (A := fun _ => False) c s
  obtain ⟨l, o, e, -⟩ := palPush_state c s
  unfold Machine.pushResult
  dsimp only
  rw [e] at hpal ⊢
  exact .palpush l o _ hi hpal

theorem Effect.loadImage {base w h cell : Word} {name : Bytes} (hok : loadOk (intOf base) (intOf w) (intOf h) s = true) :
    Effect s (.loadtm base w h cell name) (loadImage (intOf base) (intOf w) (intOf h) (intOf cell) name s) := by
  have hpal := palettize_spec (intOf base).toNat (intOf w).toNat (intOf h).toNat s
  unfold Machine.loadImage
  generalize palettize (intOf base).toNat (intOf w).toNat (intOf h).toNat s = q at hpal ⊢
  obtain ⟨n, u⟩ := q
  obtain ⟨l, o, m, k, e, -⟩ := id hpal
  dsimp only at e hpal ⊢
  subst e
  exact .loadtm base w h cell name l o m k _ _ hok hpal

theorem execLoadtm_effect (base w h cell : Word) (name : Bytes) :
    ∃ t, execLoadtm base w h cell name s = .next t ∧ Effect s (.loadtm base w h cell name) t := by
  refine ⟨_, rfl, ?_⟩
  split
  · exact .loadImage ‹_›
  · exact .answer (-1) (.inr (.inr (.inl rfl)))

theorem execLoadfnt_effect (fid : Word) (name : Bytes) :
    ∃ t, execLoadfnt fid name s = .next t ∧ Effect s (.loadfnt fid name) t := by
  refine ⟨_, rfl, ?_⟩
  split
  · exact .answer (-1) (.inr (.inr (.inr rfl)))
  · exact .loadfnt fid name _ (not_le.mp ‹_›)

/-- Every command ends in a next state, by an effect of its own. -/
theorem exec_effect (i : Instr) (s : State) : ∃ t, exec i s = .next t ∧ Effect s i t :=
  match i with
  | .nop => ⟨_, rfl, .idle _⟩
  | .drawen b => ⟨_, rfl, .drawen b⟩
  | .prerender => ⟨_, rfl, .idle _⟩
  | .postrender => ⟨_, rfl, .present⟩
  | .clear c => ⟨_, rfl, .gated (.clear c _)⟩
  | .camera x y => ⟨_, rfl, .gated (.camera x y)⟩
  | .stile .. => ⟨_, rfl, .gated (.setTile rfl)⟩
  | .stileSpan .. => ⟨_, rfl, .gated (.setTile rfl)⟩
  | .sorigin x y => ⟨_, rfl, .gated (.sorigin x y)⟩
  | .sflip h v => ⟨_, rfl, .gated (.sflip h v)⟩
  | .sscale h v => ⟨_, rfl, .gated (.sscale h v)⟩
  | .srot deg => ⟨_, rfl, .gated (.srot deg)⟩
  | .sclear => ⟨_, rfl, .gated .sclear⟩
  | .sdraw .. => ⟨_, rfl, .gated (.drawSprite (.inl rfl))⟩
  | .sbox .. => ⟨_, rfl, .gated (.drawBox (.inr rfl))⟩
  | .fnt name => execFnt_effect name
  | .falign x y => ⟨_, rfl, .gated (.falign x y)⟩
  | .fcolor c => ⟨_, rfl, .gated (.fcolor c _)⟩
  | .fclear => ⟨_, rfl, .gated .fclear⟩
  | .fdraw .. => ⟨_, rfl, .gated (.ofPicture (.inl rfl) (drawText_picture _ _ _ s))⟩
  | .tmap name => execTmap_effect name
  | .tmode v => ⟨_, rfl, .tmode v⟩
  | .mmode v => ⟨_, rfl, .gated (.mmode v)⟩
  | .mfill .. => ⟨_, rfl, .gated (.fill rfl)⟩
  | .mfillSpan .. => ⟨_, rfl, .gated (.fill rfl)⟩
  | .mscroll x y => ⟨_, rfl, .gated (.mscroll x y)⟩
  | .mclear => ⟨_, rfl, .gated .mclear⟩
  | .mdraw => ⟨_, rfl, .gated (.ofPicture (.inr rfl) (drawGrid_picture s))⟩
  | .palpush _ => ⟨_, rfl, .pushResult (.inl rfl)⟩
  | .palpushrgb _ => ⟨_, rfl, .pushResult (.inr rfl)⟩
  | .palindex _ => ⟨_, rfl, .answer _ (.inl rfl)⟩
  | .palcolor _ => ⟨_, rfl, .answer _ (.inr (.inl rfl))⟩
  | .palupdate => ⟨_, rfl, .palupdate⟩
  | .loadtm base w h cell name => execLoadtm_effect base w h cell name
  | .loadfnt fid name => execLoadfnt_effect fid name

theorem Effect.of_exec (h : exec i s = .next t) : Effect s i t := by
  obtain ⟨u, hu, he⟩ := exec_effect i s
  obtain rfl : u = t := Host.Outcome.next.inj (hu.symm.trans h)
  exact he

end Effect

end Sys2Proof.Machine
end

section
/-! SUPPORT. What every effect of a command keeps: one lemma per invariant (R24, R26, R30 to R36, R38, R39, R60). -/

namespace Sys2Proof.Machine

section Effect
variable {s t : State} {i : Instr}

/-! ## An accepted load -/

/-- The bytes of the image of an accepted load, in the operands' own values. -/
theorem loadBytes_iff {base w h : Word} {a : Nat} (hok : loadOk (intOf base) (intOf w) (intOf h) s = true) :
    loadBytes base w h a ↔ intOf base ≤ a ∧ (a : Int) < intOf base + 4 * intOf w * intOf h := by
  obtain ⟨hb, hw, hh⟩ := loadOk_toNat hok
  unfold loadBytes
  zify
  rw [hb, hw, hh]

/-- Every byte that an accepted load can write lies in texture memory (R133). -/
theorem loadBytes_lt {base w h : Word} {a : Nat} (hok : loadOk (intOf base) (intOf w) (intOf h) s = true) (ha : loadBytes base w h a) :
    a < s.cfg.texmemBytes := by
  obtain ⟨-, -, -, -, hsize, -⟩ := loadOk_iff.mp hok
  exact Int.ofNat_lt.mp (((loadBytes_iff hok).mp ha).2.trans_le hsize)

/-- The entry it appends is legal (R34). -/
theorem loadEntry_ok {base w h cell : Word} {name : Bytes} (hok : loadOk (intOf base) (intOf w) (intOf h) s = true)
    (hname : name.length ≤ strMax 4) : TmEntry.ok s.cfg (loadEntry base w h cell name) := by
  obtain ⟨h0, h4, hw, hh, hsize, -⟩ := loadOk_iff.mp hok
  obtain ⟨eb, ew, eh⟩ := loadOk_toNat hok
  refine ⟨?_, ?_, ?_, ?_, tileSizeOr_mem _, hname.trans (by decide)⟩ <;> dsimp only [loadEntry]
  · omega
  · omega
  · omega
  · zify
    rwa [eb, ew, eh]

/-! ## The invariants -/

theorem Effect.cfg (h : Effect s i t) : t.cfg = s.cfg := by cases h <;> rfl

theorem Effect.paletteOk (h : Effect s i t) (hp : PaletteOk s) : PaletteOk t := by
  cases h with
  | palpush l o r hi hpal => exact hpal.paletteOk hp
  | palupdate =>
    obtain ⟨h0, hd, hl, -⟩ := hp
    exact ⟨h0, hd, hl, h0, List.prefix_rfl⟩
  | loadtm base w h cell name l o m k r a hok hpal => exact hpal.paletteOk hp
  | _ => exact hp

theorem Effect.budgetOk (h : Effect s i t) (hb : BudgetOk s) : BudgetOk t := by
  cases h with
  | postrender => exact Nat.zero_le _
  | drawn fb k n hi hfb hn => exact hn hb
  | _ => exact hb

theorem Effect.texmemOk (h : Effect s i t) (ht : TexmemOk s) : TexmemOk t := by
  cases h with
  | loadtm base w h cell name l o m k r a hok hpal => exact hpal.texmemOk (fun _ => loadBytes_lt hok) ht
  | _ => exact ht

theorem Effect.framesOk (h : Effect s i t) (hf : FramesOk s) : FramesOk t := by
  obtain ⟨hfb, hpres⟩ := hf
  cases h with
  | postrender img k himg =>
    refine ⟨hfb, fun img' h => ?_⟩
    rcases List.mem_append.mp h with h | h
    · exact hpres img' h
    · rw [List.mem_singleton.mp h]; exact himg.trans hfb
  | clear => exact ⟨List.length_replicate, hpres⟩
  | drawn fb k n hi hlen => exact ⟨hlen.trans hfb, hpres⟩
  | painted fb k hi hlen => exact ⟨hlen.trans hfb, hpres⟩
  | _ => exact ⟨hfb, hpres⟩

theorem Effect.registriesOk (h : Effect s i t) (hwf : i.wf = true) (hr : RegistriesOk s) : RegistriesOk t := by
  obtain ⟨htm, hfont, hent⟩ := hr
  cases h with
  | loadtm base w h cell name l o m k r a hok hpal =>
    obtain ⟨-, -, -, -, -, hroom⟩ := loadOk_iff.mp hok
    refine ⟨by simpa using hroom, hfont, fun e he => ?_⟩
    rcases List.mem_append.mp he with he | he
    · exact hent e he
    · rw [List.mem_singleton.mp he]; exact loadEntry_ok (s := s) hok (of_decide_eq_true hwf)
  | loadfnt fid name r hroom => exact ⟨htm, by simpa using hroom, hent⟩
  | _ => exact ⟨htm, hfont, hent⟩

/-- An image appended to the registry leaves every view where it was. -/
theorem View.inside_append {v : View} {e : TmEntry} (h : View.inside s v) (ht : t.tm = s.tm ++ [e]) : View.inside t v := by
  obtain ⟨d, hd, hr⟩ := h
  exact ⟨d, by rw [ht]; exact (List.getElem?_append_left (List.getElem?_eq_some_iff.mp hd).1).trans hd, hr⟩

theorem Effect.attributesOk (h : Effect s i t) (ha : AttributesOk s) : AttributesOk t := by
  obtain ⟨htex, hfont, hox, hoy, hrot, hsh, hsv, hax, hay⟩ := ha
  cases h with
  | tile tex l hi hin => exact ⟨hin, hfont, hox, hoy, hrot, hsh, hsv, hax, hay⟩
  | sorigin x y => exact ⟨htex, hfont, isS32_toInt x, isS32_toInt y, hrot, hsh, hsv, hax, hay⟩
  | sscale h v => exact ⟨htex, hfont, hox, hoy, hrot, isS32_toInt h, isS32_toInt v, hax, hay⟩
  | srot deg => exact ⟨htex, hfont, hox, hoy, isS32_toInt deg, hsh, hsv, hax, hay⟩
  | sclear => exact ⟨nofun, hfont, isS32_zero, isS32_zero, isS32_zero, isS32_fixOne, isS32_fixOne, hax, hay⟩
  | fnt name f l r hf => exact ⟨htex, hf, hox, hoy, hrot, hsh, hsv, hax, hay⟩
  | falign x y => exact ⟨htex, hfont, hox, hoy, hrot, hsh, hsv, isS32_toInt x, isS32_toInt y⟩
  | fclear => exact ⟨htex, nofun, hox, hoy, hrot, hsh, hsv, isS32_zero, isS32_zero⟩
  | loadtm base w h cell name l o m k r a hok hpal =>
    exact ⟨fun v hv => View.inside_append (htex v hv) rfl, hfont, hox, hoy, hrot, hsh, hsv, hax, hay⟩
  | loadfnt fid name r hroom =>
    exact ⟨htex, fun k hk => (hfont k hk).trans_le (by simp), hox, hoy, hrot, hsh, hsv, hax, hay⟩
  | _ => exact ⟨htex, hfont, hox, hoy, hrot, hsh, hsv, hax, hay⟩

theorem Effect.gridOk (h : Effect s i t) (hg : GridOk s) : GridOk t := by
  obtain ⟨hlen, hmode, hsx, hsy, hcells⟩ := hg
  cases h with
  | mmode v => exact ⟨hlen, gridMode_mem _, hsx, hsy, hcells⟩
  | mfill cells l hi hl hc => exact ⟨hl.trans hlen, hmode, hsx, hsy, fun v hv => (hc v hv).elim (hcells v) id⟩
  | mscroll x y => exact ⟨hlen, hmode, isS32_toInt x, isS32_toInt y, hcells⟩
  | mclear => exact ⟨List.length_replicate, hmode, hsx, hsy, fun v hv => by cases (List.mem_replicate.mp hv).2⟩
  | loadtm =>
    refine ⟨hlen, hmode, hsx, hsy, fun v hv => ?_⟩
    obtain ⟨hw, hh, hlt⟩ := hcells v hv
    exact ⟨hw, hh, hlt.trans_le (by simp)⟩
  | _ => exact ⟨hlen, hmode, hsx, hsy, hcells⟩

theorem Effect.tmodeOk (h : Effect s i t) (hm : TmodeOk s) : TmodeOk t := by
  cases h with
  | tmode v => exact tileSizeOr_mem _
  | _ => exact hm

/-- No command touches the command stream. -/
theorem Effect.stream (h : Effect s i t) : t.fifo = s.fifo ∧ t.asm = s.asm := by cases h <;> exact ⟨rfl, rfl⟩

end Effect
end Sys2Proof.Machine
end

section
/-! SUPPORT. A decoded command is well formed, and what a step keeps. -/

namespace Sys2Proof

/-- A string decoded from argument words is no longer than its data words (R92). -/
theorem strOf_map_ok {f : Bytes → Instr} {ws : List Word} {i : Instr} (h : (strOf ws).map f = .ok i) :
    ∃ t, i = f t ∧ t.length + 4 ≤ 4 * ws.length := by
  cases ws with
  | nil => cases h
  | cons n data =>
    unfold strOf at h
    dsimp only at h
    split at h
    · cases h
      refine ⟨_, rfl, ?_⟩
      have hflat : (data.flatMap wordBytes).length = 4 * data.length := by simp [List.length_flatMap, wordBytes, Nat.mul_comm]
      simp only [unpackStr, List.length_take, hflat, List.length_cons]
      omega
    · cases h

/-- A command decoded from at most 255 argument words has an encoding. -/
theorem wf_of_decodeArgs {opc : Nat} {args : List Word} {i : Instr} (hl : args.length ≤ 255) (h : decodeArgs opc args = .ok i) :
    i.wf = true := by
  unfold decodeArgs at h
  split at h
  case h_15 | h_20 =>
    obtain ⟨t, rfl, ht⟩ := strOf_map_ok h
    exact decide_eq_true (by unfold strMax; omega)
  case h_19 | h_32 | h_33 =>
    split at h
    · obtain ⟨t, rfl, ht⟩ := strOf_map_ok h
      simp only [List.length_cons] at hl
      exact decide_eq_true (by unfold strMax; omega)
    · cases h
  case h_34 => cases h
  all_goals split at h <;> cases h <;> rfl

/-- A decoded command has an encoding: its strings fit behind a header (R85, R92). -/
theorem wf_of_decode {ws : List Word} {i : Instr} (h : decode ws = .ok i) : i.wf = true := by
  cases ws with
  | nil => cases h
  | cons hdr args =>
    unfold decode at h
    dsimp only at h
    split_ifs at h with hlen
    exact wf_of_decodeArgs (by rw [not_not.mp hlen]; unfold hdrNw bits; omega) h

namespace Machine

/-! ## The command stream -/

/-- A command is ready exactly when its header and the `NW` words it announces have arrived (R87). -/
theorem commandReady_iff {s : State} : commandReady s = true ↔ ∃ hdr args, s.asm = hdr :: args ∧ args.length = hdrNw hdr := by
  unfold commandReady wholeCommand
  cases s.asm with
  | nil => simp
  | cons hdr args => simp

/-- A command that is not whole, given one more word, is no more than a whole one (R40). -/
theorem streamOk_consume {s : State} {w : Word} {rest : List Word} {p : Nat} (hs : StreamOk s) (hr : commandReady s = false)
    (hf : s.fifo = w :: rest) : StreamOk { s with fifo := rest, asm := s.asm ++ [w], pos := p } := by
  obtain ⟨hlen, hasm⟩ := hs
  refine ⟨(by rw [hf] at hlen; exact (Nat.le_succ _).trans hlen), fun hdr args h => ?_⟩
  cases ha : s.asm with
  | nil => simp_all
  | cons hdr' args' =>
    have hne : args'.length ≠ hdrNw hdr' := fun e => by
      rw [commandReady_iff.mpr ⟨_, _, ha, e⟩] at hr
      cases hr
    have hle := hasm _ _ ha
    simp only [ha, List.cons_append, List.cons.injEq] at h
    obtain ⟨rfl, rfl⟩ := h
    simp only [List.length_append, List.length_singleton]
    omega

/-! ## What a step keeps -/

/-- What every effect of a legal command keeps, and what does not read the command stream, its records or `ERR_ILL`, every step keeps. -/
theorem step_keeps {P : State → Prop}
    (hstream : ∀ s e f a p r, P s → P { s with errIll := e, fifo := f, asm := a, pos := p, raced := r })
    (heffect : ∀ s i t, i.wf = true → Effect s i t → P s → P t) {s t : State} (h : step s = .next t) (hp : P s) : P t := by
  rcases step_cases s with ⟨i, -, hd, e⟩ | ⟨_, -, -, e⟩ | ⟨-, w, rest, -, e⟩ | ⟨-, -, e⟩
  · exact heffect s.retire i t (wf_of_decode hd) (.of_exec (e.symm.trans h)) (hstream s _ _ _ _ _ hp)
  all_goals
    obtain rfl := Host.Outcome.next.inj (e.symm.trans h)
  · exact hstream s _ _ _ _ _ hp
  · exact hstream s _ _ _ _ _ hp
  · exact hp

theorem step_cfg {s t : State} (h : step s = .next t) : t.cfg = s.cfg :=
  step_keeps (P := fun u => u.cfg = s.cfg) (fun _ _ _ _ _ _ hp => hp) (fun _ _ _ _ he hp => he.cfg.trans hp) h rfl

theorem step_streamOk {s t : State} (h : step s = .next t) (hs : StreamOk s) : StreamOk t := by
  rcases step_cases s with ⟨i, -, -, e⟩ | ⟨_, -, -, e⟩ | ⟨hr, w, rest, hf, e⟩ | ⟨-, -, e⟩
  · have he : Effect s.retire i t := .of_exec (e.symm.trans h)
    obtain ⟨hfifo, hasm⟩ := he.stream
    exact ⟨by rw [hfifo, he.cfg]; exact hs.1, fun hdr args ha => by rw [hasm] at ha; cases ha⟩
  all_goals
    obtain rfl := Host.Outcome.next.inj (e.symm.trans h)
  · exact ⟨hs.1, nofun⟩
  · exact streamOk_consume hs hr hf
  · exact hs

end Machine

end Sys2Proof

section
open Sys2Proof.Machine

/-- Settles O49: each invariant by what the effects of a command keep. -/
theorem stepKeepsPaletteBudgetTexmem : Obligations.StepKeepsPaletteBudgetTexmem := fun _ _ h =>
  ⟨step_keeps (fun _ _ _ _ _ _ hp => hp) (fun _ _ _ _ => Effect.paletteOk) h,
    step_keeps (fun _ _ _ _ _ _ hp => hp) (fun _ _ _ _ => Effect.budgetOk) h,
    step_keeps (fun _ _ _ _ _ _ hp => hp) (fun _ _ _ _ => Effect.texmemOk) h⟩

/-- Settles O50. A name in the registry is short enough because a decoded command is well formed. -/
theorem stepKeepsRegistriesAndAttributes : Obligations.StepKeepsRegistriesAndAttributes := fun _ _ hr ha hm h =>
  ⟨step_keeps (fun _ _ _ _ _ _ hp => hp) (fun _ _ _ hwf he => he.registriesOk hwf) h hr,
    step_keeps (fun _ _ _ _ _ _ hp => hp) (fun _ _ _ _ => Effect.attributesOk) h ha,
    step_keeps (fun _ _ _ _ _ _ hp => hp) (fun _ _ _ _ => Effect.tmodeOk) h hm⟩

/-- Settles O51. The assembly state is the one part that a step changes outside of commands. -/
theorem stepKeepsShapes : Obligations.StepKeepsShapes := fun _ _ hf hg hs h =>
  ⟨step_keeps (fun _ _ _ _ _ _ hp => hp) (fun _ _ _ _ => Effect.framesOk) h hf,
    step_keeps (fun _ _ _ _ _ _ hp => hp) (fun _ _ _ _ => Effect.gridOk) h hg, step_streamOk h hs⟩

/-- Settles O52, from O49, O50 and O51: a step writes no parameter. -/
theorem stepKeepsInvariants : Obligations.StepKeepsInvariants := by
  rintro s t ⟨hcfg, hpal, hbudget, hframes, htex, hreg, hattr, hgrid, htmode, hstream⟩ h
  obtain ⟨hpal', hbudget', htex'⟩ := stepKeepsPaletteBudgetTexmem s t h
  obtain ⟨hreg', hattr', htmode'⟩ := stepKeepsRegistriesAndAttributes s t hreg hattr htmode h
  obtain ⟨hframes', hgrid', hstream'⟩ := stepKeepsShapes s t hframes hgrid hstream h
  exact ⟨step_cfg h ▸ hcfg, hpal' hpal, hbudget' hbudget, hframes', htex' htex, hreg', hattr', hgrid', htmode', hstream'⟩

end
end

section
/-! SUPPORT. Which commands write what (R23 to R33, R65). -/

namespace Sys2Proof.Machine

/-- Only a load of an image that holds it changes a byte of texture memory. -/
theorem Effect.texByte {s t : State} {i : Instr} (h : Effect s i t) {a : Nat} (ha : t.texByte a ≠ s.texByte a) :
    ∃ base w h cell name, i = .loadtm base w h cell name ∧ intOf base ≤ a ∧ (a : Int) < intOf base + 4 * intOf w * intOf h := by
  cases h with
  | loadtm base w h cell name l o m k r x hok hpal =>
    have hin : loadBytes base w h a := by
      by_contra hout
      exact ha (hpal.texByte hout)
    exact ⟨base, w, h, cell, name, rfl, (loadBytes_iff hok).mp hin⟩
  | _ => exact absurd rfl ha

end Sys2Proof.Machine

section
open Sys2Proof Sys2Proof.Machine

/-- Settles O54: each effect changes the fields of its own command alone. -/
theorem onlyNamedCommandsWrite : Obligations.OnlyNamedCommandsWrite := by
  intro i s t h
  have he := Effect.of_exec h
  have hbyte := fun a => he.texByte (a := a)
  cases he with
  | tile tex l hi | mfill cells l hi => simp [State.texByte, hi]
  | drawn fb k n hi | painted fb k hi | palpush l o r hi => rcases hi with hi | hi <;> simp [State.texByte, hi]
  | answer r hi => rcases hi with hi | hi | hi | hi <;> simp [State.texByte, hi]
  | loadtm => simpa [Instr.opcode] using hbyte
  | _ => simp [State.texByte, Instr.opcode]

end
end

section
/-! SUPPORT. The register port by its cases (R40 to R46), and the bits of `STATUS` (R29, R44). -/

namespace Sys2Proof.Machine

section Port
variable {s : State} {off size : Nat} {w : Word}

theorem quiet_iff : s.quiet = true ↔ s.asm = [] ∧ s.fifo = [] := by simp [State.quiet]

theorem quiet_of_empty (ha : s.asm = []) (hf : s.fifo = []) : s.quiet = true := quiet_iff.mpr ⟨ha, hf⟩

theorem not_quiet (h : s.asm ≠ [] ∨ s.fifo ≠ []) : s.quiet = false := by
  rw [Bool.eq_false_iff, ne_eq, quiet_iff, not_and_or]
  exact h

theorem regAccessOk_iff : regAccessOk off size = true ↔ off % 4 = 0 ∧ size = 4 ∧ off < 256 := by
  simp [regAccessOk, and_assoc]

theorem regAccessOk_eq_false (h : off % 4 ≠ 0 ∨ size ≠ 4) : regAccessOk off size = false := by
  rw [Bool.eq_false_iff, ne_eq, regAccessOk_iff]
  rintro ⟨h4, hs, -⟩
  exact h.elim (· h4) (· hs)

theorem regRead_refused (h : off % 4 ≠ 0 ∨ size ≠ 4) : regRead off size s = .refused .registerAccess := by
  simp [regRead, regAccessOk_eq_false h]

theorem regWrite_refused (h : off % 4 ≠ 0 ∨ size ≠ 4) : regWrite off size w s = .refused .registerAccess := by
  simp [regWrite, regAccessOk_eq_false h]

theorem regWrite_cmd_room (h : s.fifo.length < s.cfg.fifoDepth) : regWrite 0 4 w s = .done 0 { s with fifo := s.fifo ++ [w] } := by
  simp [regWrite, regAccessOk, h]

theorem regWrite_cmd_full (h : s.cfg.fifoDepth ≤ s.fifo.length) : regWrite 0 4 w s = .wait := by
  simp [regWrite, regAccessOk, not_lt.mpr h]

/-- What a port does at a register other than `CMD`: it waits while a command is pending (R46). -/
theorem regRead_register (h4 : off % 4 = 0) (h0 : 4 ≤ off) (h : off ≤ 0xFC) :
    regRead off 4 s = if s.quiet = true then .done (regValue off s) s else .wait := by
  have hne : off ≠ 0 := by omega
  have hok : regAccessOk off 4 = true := regAccessOk_iff.mpr ⟨h4, rfl, by omega⟩
  cases hq : s.quiet <;> simp [regRead, hok, hne, hq]

theorem regWrite_register (h4 : off % 4 = 0) (h0 : 4 ≤ off) (h : off ≤ 0xFC) :
    regWrite off 4 w s = if s.quiet = true then .done 0 (if off = 8 then statusWrite w s else s) else .wait := by
  have hne : off ≠ 0 := by omega
  have hok : regAccessOk off 4 = true := regAccessOk_iff.mpr ⟨h4, rfl, by omega⟩
  cases hq : s.quiet
  · simp [regWrite, hok, hne, hq]
  · simp only [regWrite, hok, hne, hq, Bool.not_true, Bool.false_eq_true, if_true, if_false]
    split <;> rfl

theorem regRead_quiet (h4 : off % 4 = 0) (h0 : 4 ≤ off) (h : off ≤ 0xFC) (ha : s.asm = []) (hf : s.fifo = []) :
    regRead off 4 s = .done (regValue off s) s := by
  rw [regRead_register h4 h0 h, if_pos (quiet_of_empty ha hf)]

/-- The registers past `VERSION` are reserved and read 0 (R41). -/
theorem regValue_reserved (h : 0x38 ≤ off) : regValue off s = 0 := by
  unfold regValue
  split
  case h_14 => rfl
  all_goals omega

/-! ## The bits of `STATUS` -/

theorem statusWord_getLsbD :
    (statusWord s).getLsbD 0 = s.drawEn ∧ (statusWord s).getLsbD 1 = s.errIll ∧ (statusWord s).getLsbD 2 = s.logNf ∧
      (statusWord s).getLsbD 3 = s.palOvf := by
  have h : ∀ a b c d : Bool, let x := BitVec.ofNat 32 (a.toNat + 2 * b.toNat + 4 * c.toNat + 8 * d.toNat)
      x.getLsbD 0 = a ∧ x.getLsbD 1 = b ∧ x.getLsbD 2 = c ∧ x.getLsbD 3 = d := by decide
  exact h s.drawEn s.errIll s.logNf s.palOvf

theorem statusWord_getLsbD_reserved {k : Nat} (hk : 4 ≤ k) : (statusWord s).getLsbD k = false := by
  have hlt : s.drawEn.toNat + 2 * s.errIll.toNat + 4 * s.logNf.toNat + 8 * s.palOvf.toNat < 2 ^ 4 := by
    have := s.drawEn.toNat_lt; have := s.errIll.toNat_lt; have := s.logNf.toNat_lt; have := s.palOvf.toNat_lt
    omega
  rw [statusWord, BitVec.getLsbD_ofNat, Nat.testBit_lt_two_pow (hlt.trans_le (Nat.pow_le_pow_right two_pos hk)), Bool.and_false]

/-- A one-bit field of a word is its bit. -/
theorem bits_self_eq_zero (w : Word) (k : Nat) : bits w k k = 0 ↔ w.getLsbD k = false := by
  rw [bits, Nat.add_sub_cancel_left, pow_one, BitVec.getLsbD, Nat.testBit_eq_decide_div_mod_eq, decide_eq_false_iff_not]
  omega

end Port

end Sys2Proof.Machine

section
open Sys2Proof Sys2Proof.Machine

/-- Settles O55: the bits of `STATUS` and the reads of a quiet block. -/
theorem registerWindowReads : Obligations.RegisterWindowReads := by
  intro s
  obtain ⟨h0, h1, h2, h3⟩ := statusWord_getLsbD (s := s)
  refine ⟨rfl, ⟨h0, h1, h2, h3, fun k => statusWord_getLsbD_reserved⟩, fun off size w hoff => ?_, fun ha hf => ?_⟩
  · simp [busRead, busWrite, hoff]
  · refine ⟨?_, ?_, ?_, ?_, ?_, ?_, ?_, ?_, ?_, ?_, ?_, ?_, ?_, fun k hlo hhi => ?_⟩
    case refine_14 => rw [regRead_quiet (by omega) (by omega) hhi ha hf, regValue_reserved hlo]
    all_goals exact regRead_quiet (by decide) (by decide) (by decide) ha hf

/-- Settles O56: a sticky bit stays exactly where its bit of `w` is 0. -/
theorem statusWriteClearsOnes : Obligations.StatusWriteClearsOnes := by
  intro s w ha hf
  refine ⟨(statusWrite w s).errIll, (statusWrite w s).logNf, (statusWrite w s).palOvf, ?_, ?_⟩
  · rw [regWrite_register (by decide) (by decide) (by decide), if_pos (quiet_of_empty ha hf)]
    rfl
  · simp only [statusWrite, Bool.and_eq_true, beq_iff_eq, bits_self_eq_zero, and_self]

/-- Settles O57, one lemma of the register port a clause. -/
theorem registerPortProtocol : Obligations.RegisterPortProtocol := by
  refine fun s off size w => ⟨regWrite_cmd_room, regWrite_cmd_full, fun h4 h0 h hp => ?_, fun h => ⟨regRead_refused h, regWrite_refused h⟩,
    fun h4 h0 h h8 ha hf => ?_⟩
  · rw [regRead_register h4 h0 h, regWrite_register h4 h0 h, not_quiet hp]
    exact ⟨rfl, rfl⟩
  · rw [regWrite_register h4 h0 h, if_pos (quiet_of_empty ha hf), if_neg h8]

end
end

section
/-! SUPPORT. What the host's accesses and the reset input keep (R62, R280). -/

namespace Sys2Proof.Machine

section Host
variable {s t : State} {v w : Word}

/-- A register read changes nothing. -/
theorem regRead_state {off size : Nat} (h : regRead off size s = .done v t) : t = s := by
  unfold regRead at h
  split_ifs at h <;> cases h <;> rfl

theorem busRead_state {addr size : Nat} (h : busRead addr size s = .done v t) : t = s := by
  unfold busRead at h
  split at h
  · exact regRead_state h
  · cases h

theorem texPortRead_state {addr size : Nat} (h : texPortRead addr size s = .done v t) : t = s := by
  unfold texPortRead at h
  split at h
  · cases h; rfl
  · cases h

/-- A word that finds room in the FIFO keeps the invariants (R40). -/
theorem inv_appendFifo (hs : s.Inv) (h : s.fifo.length < s.cfg.fifoDepth) : State.Inv { s with fifo := s.fifo ++ [w] } := by
  obtain ⟨hcfg, hpal, hbudget, hframes, htex, hreg, hattr, hgrid, htmode, -, hasm⟩ := hs
  exact ⟨hcfg, hpal, hbudget, hframes, htex, hreg, hattr, hgrid, htmode, by simpa using h, hasm⟩

/-- A register write that completes keeps the invariants. -/
theorem regWrite_inv {off size : Nat} (hs : s.Inv) (h : regWrite off size w s = .done v t) : t.Inv := by
  unfold regWrite at h
  split_ifs at h with _ _ hroom <;> cases h
  · exact inv_appendFifo hs hroom
  · exact hs
  · exact hs

theorem busWrite_inv {addr size : Nat} (hs : s.Inv) (h : busWrite addr size w s = .done v t) : t.Inv := by
  unfold busWrite at h
  split at h
  · exact regWrite_inv hs h
  · cases h

/-- Storing a byte inside texture memory keeps its form (R60). -/
theorem TexmemOk.storeByte {a : Nat} (ht : TexmemOk s) (b : Byte) (ha : a < s.cfg.texmemBytes) : TexmemOk (s.storeByte a b) :=
  (Palettized.storeByte (A := (· = a)) rfl b s).texmemOk (fun _ e => e ▸ ha) ht

/-- A host byte is stored, and the race it may make is recorded. -/
theorem hostStore_state (a : Nat) (b : Byte) (s : State) : ∃ r, hostStore a b s = { s.storeByte a b with raced := r } := by
  unfold hostStore
  dsimp only
  split
  · exact ⟨s.raced, rfl⟩
  · exact ⟨_, rfl⟩

theorem hostStore_inv {a : Nat} (hs : s.Inv) (b : Byte) (ha : a < s.cfg.texmemBytes) :
    (hostStore a b s).Inv ∧ (hostStore a b s).cfg = s.cfg := by
  obtain ⟨r, e⟩ := hostStore_state a b s
  obtain ⟨hcfg, hpal, hbudget, hframes, htex, hrest⟩ := hs
  rw [e]
  exact ⟨⟨hcfg, hpal, hbudget, hframes, htex.storeByte b ha, hrest⟩, rfl⟩

theorem texPortWrite_inv {addr size : Nat} (hs : s.Inv) (h : texPortWrite addr size w s = .done v t) : t.Inv := by
  unfold texPortWrite at h
  split at h
  · rename_i hok
    have hsize : addr + size ≤ s.cfg.texmemBytes := of_decide_eq_true (Bool.and_eq_true_iff.mp hok).2
    cases h
    refine (List.foldlRecOn (motive := fun u : State => u.Inv ∧ u.cfg = s.cfg) _ _ ⟨hs, rfl⟩ fun u hu k hk => ?_).1
    have hk := List.mem_range.mp hk
    obtain ⟨hi, hc⟩ := hostStore_inv hu.1 (BitVec.ofNat 8 (bits w (8 * k + 7) (8 * k))) (a := addr + k) (by rw [hu.2]; omega)
    exact ⟨hi, hc.trans hu.2⟩
  · cases h

/-- The state after any reset of a legal configuration meets every invariant (R281). -/
theorem resetWith_inv {c : Config} (hc : c.wf = true) (r : Nat) : (State.resetWith c r).Inv := by
  have hcap : 1 ≤ c.palCap := by
    simp only [Config.wf, Bool.and_eq_true, decide_eq_true_eq] at hc
    omega
  refine ⟨hc, ⟨rfl, List.nodup_singleton _, hcap, rfl, List.prefix_rfl⟩, Nat.zero_le _, ⟨?_, nofun⟩, ⟨Memory.wf_nil, nofun⟩,
    ⟨Nat.zero_le _, Nat.zero_le _, nofun⟩,
    ⟨nofun, nofun, isS32_zero, isS32_zero, isS32_zero, isS32_fixOne, isS32_fixOne, isS32_zero, isS32_zero⟩,
    ⟨List.length_replicate, List.mem_cons_self, isS32_zero, isS32_zero, fun v hv => ?_⟩, ?_, Nat.zero_le _, nofun⟩
  · simp [State.resetWith]
  · cases (List.mem_replicate.mp hv).2
  · exact (by decide : (defaultTile : Int) ∈ tileSizes)

end Host

end Sys2Proof.Machine

section
open Sys2Proof Sys2Proof.Machine

/-- Settles O60: reads leave the state, the writes and the reset input one lemma each. -/
theorem hostAccessKeepsInvariants : Obligations.HostAccessKeepsInvariants := fun _ hs =>
  ⟨fun _ _ _ _ => busRead_state, fun _ _ _ _ => texPortRead_state, fun _ _ _ _ _ => busWrite_inv hs, fun _ _ _ _ _ => texPortWrite_inv hs,
    resetWith_inv hs.1 _⟩

end
end

section
/-! SUPPORT. How a command is assembled and run (R40, R85 to R87). -/

namespace Sys2Proof.Machine

section Stream
variable {s t : State}

theorem step_of_ready {i : Instr} (hr : commandReady s = true) (hd : decode s.asm = .ok i) : step s = exec i s.retire := by
  simp [step, hr, hd]

theorem step_of_not_ready (hr : commandReady s = false) : step s = .next (consumeWord s) := by simp [step, hr]

theorem consumeWord_cons {w : Word} {rest : List Word} (hf : s.fifo = w :: rest) :
    consumeWord s = { s with fifo := rest, asm := s.asm ++ [w], pos := s.pos + 1 } := by simp [consumeWord, hf]

theorem consumeWord_nil (hf : s.fifo = []) : consumeWord s = s := by simp [consumeWord, hf]

theorem not_ready_of_short {hdr : Word} {args : List Word} (ha : s.asm = hdr :: args) (hl : args.length < hdrNw hdr) :
    commandReady s = false := by
  simp [commandReady, wholeCommand, ha, hl.ne]

theorem not_ready_of_empty (ha : s.asm = []) : commandReady s = false := by simp [commandReady, wholeCommand, ha]

theorem core_run_succ {k : Nat} (h : step s = .next t) : core.run (k + 1) s = core.run k t := by
  simp only [Host.Core.run, core, h]

/-- While arguments of the command in assembly are missing, each step takes one more of them from the FIFO. -/
theorem run_takes_arguments {hdr : Word} {rest : List Word} (args got : List Word) (s : State) (ha : s.asm = hdr :: got)
    (hf : s.fifo = args ++ rest) (hl : got.length + args.length = hdrNw hdr) :
    core.run args.length s = .next { s with fifo := rest, asm := hdr :: (got ++ args), pos := s.pos + args.length } := by
  induction args generalizing got s with
  | nil =>
    cases s
    simp_all [Host.Core.run]
  | cons w args ih =>
    have hstep := step_of_not_ready (not_ready_of_short ha (by simp only [List.length_cons] at hl; omega))
    rw [consumeWord_cons hf] at hstep
    rw [List.length_cons, core_run_succ hstep,
      ih (got ++ [w]) _ (by simp [ha]) rfl (by simp only [List.length_append, List.length_cons, List.length_nil] at hl ⊢; omega)]
    simp [Nat.add_assoc, Nat.add_comm 1]

end Stream

/-! ## The gate and the effective scale -/

theorem gated_on {f : State → State} {s : State} (h : s.drawEn = true) : gated f s = f s := if_pos h

theorem gated_off {f : State → State} {s : State} (h : s.drawEn = false) : gated f s = s := by simp [gated, h]

/-- R37: the effective scale along one axis. -/
theorem rat_effH (n : NextSprite) : Spec.rat (effH n) = Spec.rat n.scaleH * (if n.flipH then -1 else 1) := by
  unfold effH Spec.rat
  split <;> push_cast <;> ring

theorem rat_effV (n : NextSprite) : Spec.rat (effV n) = Spec.rat n.scaleV * (if n.flipV then -1 else 1) := by
  unfold effV Spec.rat
  split <;> push_cast <;> ring

end Sys2Proof.Machine

section
open Sys2Proof Sys2Proof.Machine Sys2Proof.Spec

/-- Settles O8: the state a legal command runs on is the retired one. -/
theorem stepRunsDecodedCommand : Obligations.StepRunsDecodedCommand := fun _ _ hr hd => step_of_ready hr hd

/-- Settles O10: readiness by the header's count; a step that is not ready consumes a word if there is one. -/
theorem incompleteCommandTakesWordsOrWaits : Obligations.IncompleteCommandTakesWordsOrWaits := fun s =>
  ⟨commandReady_iff, fun hr =>
    ⟨fun w rest hf => by rw [step_of_not_ready hr, consumeWord_cons hf], fun hf => by rw [step_of_not_ready hr, consumeWord_nil hf]⟩⟩

/-- Settles O11: the header is taken from the empty assembly, then the arguments one by one. -/
theorem wholeCommandIsAssembled : Obligations.WholeCommandIsAssembled := by
  intro s hdr args rest ha hf hl
  refine ⟨?_, commandReady_iff.mpr ⟨hdr, args, rfl, hl⟩⟩
  have hstep := step_of_not_ready (not_ready_of_empty ha)
  rw [consumeWord_cons hf] at hstep
  rw [Nat.add_comm 1, core_run_succ hstep, run_takes_arguments args [] _ (by rw [ha]; rfl) rfl (by simpa using hl)]
  simp [Nat.add_assoc, Nat.add_comm 1]

/-- Settles O20: the two commands write different fields of `NS`. -/
theorem flipAndScaleCommute : Obligations.FlipAndScaleCommute := by
  intro s a b c d
  cases h : s.drawEn with
  | false =>
    refine ⟨s, ?_, ?_, nofun⟩ <;> simp [execAll, exec, execSflip, execSscale, gated_off h]
  | true =>
    refine ⟨s.setNs { s.ns with flipH := a, flipV := b, scaleH := fixOf c, scaleV := fixOf d }, ?_, ?_, fun _ => ?_⟩
    · simp [execAll, exec, execSflip, execSscale, gated_on, h, State.setNs]
    · simp [execAll, exec, execSflip, execSscale, gated_on, h, State.setNs]
    · refine ⟨rfl, rat_effH _, rfl, rat_effV _, fun e f =>
        ⟨s.setNs { s.ns with flipH := e, flipV := f, scaleH := fixOf c, scaleV := fixOf d }, ?_, rfl, rat_effH _, rfl, rat_effV _⟩⟩
      simp [exec, execSflip, gated_on, h, State.setNs]

end
end

section
/-! SUPPORT. The host's bytes in texture memory (R62, R79): one lemma per operation of `Machine/Bus.lean`. -/

namespace Sys2Proof.Machine

section TexturePort
variable {s : State} {a addr size : Nat}

/-! ## One byte of a host write -/

theorem hostStore_quiet (h : s.quiet = true) (a : Nat) (v : Byte) : hostStore a v s = s.storeByte a v := by
  simp [hostStore, h]

/-- A host byte is read back at its address; every other byte is as before, whatever races. -/
theorem texByte_hostStore (s : State) (a : Nat) (v : Byte) (b : Nat) :
    (hostStore a v s).texByte b = if b = a then v else s.texByte b := by
  obtain ⟨r, e⟩ := hostStore_state a v s
  rw [e]
  exact s.texByte_storeByte

/-- The races after a host byte: those before, and, behind a pending command, the byte's own (R79(c)). -/
theorem hostStore_raced (s : State) (a : Nat) (v : Byte) : (hostStore a v s).raced =
    s.raced ++ if s.quiet then [] else [{ addr := a, old := s.texByte a, new := v, limit := s.pos + s.fifo.length }] := by
  cases h : s.quiet <;> simp [hostStore, h, State.storeByte]

/-- With no race before, the only race after a host byte is its own. -/
theorem eq_of_mem_racesAt_hostStore {v : Byte} {b : Nat} {r : Race} (hs : s.raced = []) (h : r ∈ racesAt (hostStore a v s) b) :
    b = a ∧ r.old = s.texByte a ∧ r.new = v := by
  obtain ⟨hr, hb⟩ := List.mem_filter.mp h
  rw [hostStore_raced, hs, List.nil_append] at hr
  split at hr
  · cases hr
  · obtain rfl := List.mem_singleton.mp hr
    exact ⟨(of_decide_eq_true hb).symm, rfl, rfl⟩

/-- `TexRead8` of a byte that no host write races on gives the stored byte and changes nothing. -/
theorem texRead8_of_racesAt_nil (h : racesAt s a = []) : texRead8 a s = (s.texByte a, s) := by simp [texRead8, h]

/-- `TexRead8` gives the stored byte, or the old or the new byte of a host write that races on it (R79(c)). -/
theorem texRead8_candidate (a : Nat) (s : State) :
    (texRead8 a s).1 = s.texByte a ∨ ∃ r ∈ racesAt s a, (texRead8 a s).1 = r.old ∨ (texRead8 a s).1 = r.new := by
  have hmem : (texRead8 a s).1 ∈ s.texByte a :: (racesAt s a).flatMap fun r => [r.old, r.new] := by
    unfold texRead8
    split
    · exact List.mem_cons_self
    · rename_i r rs h
      dsimp only
      rw [h, List.getD_eq_getElem _ _ (Nat.mod_lt _ (List.length_pos_of_ne_nil (List.cons_ne_nil _ _)))]
      exact List.getElem_mem _
  simpa using hmem

/-! ## A host write -/

/-- The state after a host write of the bytes `f 0`, …, `f (n - 1)` from `addr` on. -/
def hostStoreBytes (addr : Nat) (f : Nat → Byte) (n : Nat) (s : State) : State :=
  (List.range n).foldl (fun s k => hostStore (addr + k) (f k) s) s

theorem hostStoreBytes_succ (addr : Nat) (f : Nat → Byte) (n : Nat) (s : State) :
    hostStoreBytes addr f (n + 1) s = hostStore (addr + n) (f n) (hostStoreBytes addr f n s) := by
  simp [hostStoreBytes, List.range_succ]

/-- A host write changes texture memory and the record of races only. -/
theorem hostStoreBytes_state (addr : Nat) (f : Nat → Byte) (n : Nat) (s : State) :
    ∃ m r, hostStoreBytes addr f n s = { s with texmem := m, raced := r } := by
  induction n with
  | zero => exact ⟨s.texmem, s.raced, rfl⟩
  | succ n ih =>
    obtain ⟨m, r, e⟩ := ih
    obtain ⟨r', e'⟩ := hostStore_state (addr + n) (f n) (hostStoreBytes addr f n s)
    rw [hostStoreBytes_succ, e', e]
    exact ⟨_, r', rfl⟩

theorem texByte_hostStoreBytes (addr : Nat) (f : Nat → Byte) (n : Nat) (s : State) (a : Nat) :
    (hostStoreBytes addr f n s).texByte a = if addr ≤ a ∧ a < addr + n then f (a - addr) else s.texByte a := by
  induction n with
  | zero => rw [if_neg (by omega)]; rfl
  | succ n ih =>
    rw [hostStoreBytes_succ, texByte_hostStore, ih]
    by_cases h : a = addr + n
    · rw [if_pos h, if_pos (by omega), h, Nat.add_sub_cancel_left]
    · rw [if_neg h]
      congr 1
      simp only [eq_iff_iff]
      omega

/-! ## The value of several bytes -/

theorem texValue_succ (addr n : Nat) (s : State) :
    texValue addr (n + 1) s = (s.texByte addr).toNat + 256 * texValue (addr + 1) n s := by
  simp [texValue, List.range_succ_eq_map, List.foldr_map, Nat.add_assoc, Nat.add_comm 1]

/-- Byte `k` of the little-endian value is the byte at `addr + k`; above the bytes read it is 0. -/
theorem texValue_byte (addr n : Nat) (s : State) (k : Nat) :
    BitVec.ofNat 8 (texValue addr n s / 2 ^ (8 * k)) = if k < n then s.texByte (addr + k) else 0 := by
  induction n generalizing addr k with
  | zero => simp [texValue]
  | succ n ih =>
    rw [texValue_succ]
    cases k with
    | zero => simp [BitVec.ofNat_add, BitVec.ofNat_mul]
    | succ k =>
      have hdiv : ((s.texByte addr).toNat + 256 * texValue (addr + 1) n s) / 2 ^ (8 * (k + 1)) =
          texValue (addr + 1) n s / 2 ^ (8 * k) := by
        have hlt := (s.texByte addr).isLt
        rw [Nat.mul_succ, Nat.pow_add, Nat.mul_comm (2 ^ (8 * k)), ← Nat.div_div_eq_div_mul]
        congr 1
        omega
      rw [hdiv, ih]
      simp [Nat.add_assoc, Nat.add_comm 1]

/-- The value of the bytes of `x` is `x`, cut to their number. -/
theorem texValue_of_bytes {n x : Nat} (h : ∀ k < n, s.texByte (addr + k) = BitVec.ofNat 8 (x / 2 ^ (8 * k))) :
    texValue addr n s = x % 2 ^ (8 * n) := by
  induction n generalizing addr x with
  | zero => simp [texValue, Nat.mod_one]
  | succ n ih =>
    have h0 : s.texByte addr = BitVec.ofNat 8 x := by simpa using h 0 (Nat.succ_pos n)
    have hrest : texValue (addr + 1) n s = x / 256 % 2 ^ (8 * n) := ih fun k hk => by
      rw [Nat.add_assoc, Nat.add_comm 1, h _ (Nat.succ_lt_succ hk), Nat.mul_succ, Nat.add_comm, Nat.pow_add, ← Nat.div_div_eq_div_mul]
    rw [texValue_succ, h0, hrest, BitVec.toNat_ofNat, Nat.mul_succ, Nat.add_comm (8 * n), Nat.pow_add, Nat.mod_mul]

/-- A byte of a machine word below its width is the byte of the number. -/
theorem extractLsb'_ofNat_byte (x : Nat) {k : Nat} (h : k < 4) :
    (BitVec.ofNat 32 x).extractLsb' (8 * k) 8 = BitVec.ofNat 8 (x / 2 ^ (8 * k)) := by
  refine BitVec.eq_of_getLsbD_eq fun i hi => ?_
  have hbit : 8 * k + i < 32 := by omega
  simp only [BitVec.getLsbD_extractLsb', BitVec.getLsbD_ofNat, Nat.testBit_div_two_pow, Nat.add_comm i, hbit, decide_true,
    Bool.true_and]

theorem ofNat_bits_byte (w : Word) (k : Nat) :
    BitVec.ofNat 8 (bits w (8 * k + 7) (8 * k)) = BitVec.ofNat 8 (w.toNat / 2 ^ (8 * k)) := by
  have hwidth : 8 * k + 7 + 1 - 8 * k = 8 := by omega
  rw [bits, hwidth]
  exact BitVec.eq_of_toNat_eq (by simp)

/-! ## The port -/

theorem texAccessOk_iff : texAccessOk addr size s = true ↔
    (size = 1 ∨ size = 2 ∨ size = 4) ∧ addr % size = 0 ∧ addr + size ≤ s.cfg.texmemBytes := by
  simp [texAccessOk, or_assoc, and_assoc]

theorem texPortRead_of_ok (h : texAccessOk addr size s = true) :
    texPortRead addr size s = .done (BitVec.ofNat 32 (texValue addr size s)) s := if_pos h

theorem texPortWrite_of_ok (w : Word) (h : texAccessOk addr size s = true) : texPortWrite addr size w s =
    .done 0 (hostStoreBytes addr (fun k => BitVec.ofNat 8 (bits w (8 * k + 7) (8 * k))) size s) := if_pos h

/-- A bad access is refused, a read and a write alike (R62). -/
theorem texPort_refused (w : Word) (h : texAccessOk addr size s = false) :
    texPortRead addr size s = .refused .texmemAccess ∧ texPortWrite addr size w s = .refused .texmemAccess := by
  simp [texPortRead, texPortWrite, h]

/-- A read gives the bytes stored, little-endian, and 0 above them (R62, R67). -/
theorem texPortRead_bytes (h : texAccessOk addr size s = true) : ∃ v, texPortRead addr size s = .done v s ∧
    ∀ k < 4, v.extractLsb' (8 * k) 8 = if k < size then s.texByte (addr + k) else 0 :=
  ⟨_, texPortRead_of_ok h, fun k hk => by rw [extractLsb'_ofNat_byte _ hk, texValue_byte]⟩

/-- A write stores the bytes of its word, little-endian, and changes nothing else but the record of races (R62, R74). -/
theorem texPortWrite_bytes (w : Word) (h : texAccessOk addr size s = true) :
    ∃ t, texPortWrite addr size w s = .done 0 t ∧ t = { s with texmem := t.texmem, raced := t.raced } ∧
      (∀ k < size, t.texByte (addr + k) = BitVec.ofNat 8 (w.toNat / 2 ^ (8 * k))) ∧
      ∀ a, a < addr ∨ addr + size ≤ a → t.texByte a = s.texByte a := by
  refine ⟨_, texPortWrite_of_ok w h, ?_, fun k hk => ?_, fun a ha => ?_⟩
  · obtain ⟨m, r, e⟩ := hostStoreBytes_state addr (fun k => BitVec.ofNat 8 (bits w (8 * k + 7) (8 * k))) size s
    rw [e]
  · rw [texByte_hostStoreBytes, if_pos (by omega), Nat.add_sub_cancel_left, ofNat_bits_byte]
  · rw [texByte_hostStoreBytes, if_neg (by omega)]

end TexturePort

end Sys2Proof.Machine

section
open Sys2Proof Sys2Proof.Machine

/-- Settles O58: an access that passes the check reads or stores each byte at its place; any other is refused. -/
theorem texturePortReadsBack : Obligations.TexturePortReadsBack := by
  intro s addr size w
  refine ⟨fun hsize halign hend => ?_, fun hbad => texPort_refused w ?_⟩
  · have hok : texAccessOk addr size s = true := texAccessOk_iff.mpr ⟨hsize, halign, hend⟩
    obtain ⟨t, hwrite, hframe, hbytes, hrest⟩ := texPortWrite_bytes w hok
    have hcfg : t.cfg = s.cfg := by rw [hframe]
    have hread := texPortRead_of_ok (texAccessOk_iff.mpr ⟨hsize, halign, hcfg ▸ hend⟩)
    rw [texValue_of_bytes hbytes] at hread
    exact ⟨texPortRead_bytes hok, t, hwrite, hframe, hread, hbytes, hrest⟩
  · rw [Bool.eq_false_iff, ne_eq, texAccessOk_iff]
    rintro ⟨hsize, halign, hend⟩
    rcases hbad with h | h | h
    · exact h halign
    · exact absurd hend (Nat.not_le.mpr h)
    · exact h hsize

/-- Settles O59: the byte stored is the new one, and the one race that the write records names the old byte and the new. -/
theorem hostWriteRacesWithPendingCommand : Obligations.HostWriteRacesWithPendingCommand := by
  intro s a v
  refine ⟨fun ha hf => hostStore_quiet (quiet_of_empty ha hf) a v, texByte_hostStore s a v, fun hs => ⟨?_, fun b hb => ?_⟩⟩
  · rcases texRead8_candidate a (hostStore a v s) with h | ⟨r, hr, h⟩
    · exact .inl (by rw [h, texByte_hostStore, if_pos rfl])
    · obtain ⟨-, hold, hnew⟩ := eq_of_mem_racesAt_hostStore hs hr
      exact (hnew ▸ hold ▸ h).symm
  · have hnone : racesAt (hostStore a v s) b = [] :=
      List.eq_nil_iff_forall_not_mem.mpr fun r hr => hb (eq_of_mem_racesAt_hostStore hs hr).1
    rw [texRead8_of_racesAt_nil hnone, texByte_hostStore, if_neg hb]

end
end

section
/-! SUPPORT. Decoding by rows: what a legal header lets through, what each row of R95 answers, and strings packed and unpacked. -/

namespace Sys2Proof

section Rows
variable {opc : Nat} {args ws : List Word} {i : Instr} {t : Bytes}

/-! ## Headers -/

/-- The opcodes that R95 lists are the bytes outside R98's ranges. -/
theorem opcodeListed_iff : opcodeListed opc = true ↔ opc < 256 ∧ ¬ Spec.reservedOpcode opc := by
  simp only [opcodeListed, Spec.reservedOpcode, List.cons_append, List.nil_append, List.mem_cons, List.not_mem_nil, or_false,
    decide_eq_true_eq]
  omega

theorem opcodeListed_opcode (i : Instr) : opcodeListed i.opcode = true := by cases i <;> rfl

/-- A command behind the header `{OPC, NW, 0}` of a listed opcode is what its row makes of the argument words (R87). -/
theorem decode_header (ho : opcodeListed opc = true) (hn : args.length < 256) :
    decode (header opc args.length :: args) = decodeArgs opc args := by
  have hopc := (opcodeListed_iff.mp ho).1
  simp [decode, hdrNw_header hopc hn, hdrOpc_header hopc hn, hdrRsv_header hopc hn, ho]

/-- A whole command decodes by passing R87's checks of its header and then by its row. -/
theorem decode_eq_ok_iff {hdr : Word} (hn : args.length = hdrNw hdr) :
    decode (hdr :: args) = .ok i ↔ opcodeListed (hdrOpc hdr) = true ∧ hdrRsv hdr = 0 ∧ decodeArgs (hdrOpc hdr) args = .ok i := by
  by_cases ho : opcodeListed (hdrOpc hdr) = true <;> by_cases hr : hdrRsv hdr = 0 <;> simp [decode, hn, ho, hr]

theorem length_eq_hdrNw_of_decode {hdr : Word} (h : decode (hdr :: args) = .ok i) : args.length = hdrNw hdr := by
  by_contra hn
  simp [decode, hn] at h

/-! ## Strings -/

theorem length_flatMap_wordBytes (data : List Word) : (data.flatMap wordBytes).length = 4 * data.length := by
  simp [List.length_flatMap, wordBytes, Nat.mul_comm]

/-- As many data words as R92 announces hold the bytes it counts. -/
theorem unpackStr_length {n : Nat} {data : List Word} (h : data.length = strWords n) : (unpackStr n data).length = n := by
  simp only [unpackStr, List.length_take, length_flatMap_wordBytes, h, strWords]
  omega

/-- Unpacking undoes packing: the padding is cut off (R92). -/
theorem unpackStr_packStr (t : Bytes) : unpackStr t.length (packStr t) = t := by
  induction t using packStr.induct with
  | case1 => rfl
  | case2 | case3 | case4 => simp [unpackStr, packStr, wordBytes_bytesWord]
  | case5 a b c d rest ih =>
    unfold unpackStr at ih
    simp [unpackStr, packStr, wordBytes_bytesWord, ih]

/-- A `STR` operand decodes exactly when its data words are as many as its count announces, and then to the bytes counted (R92). -/
theorem strOf_eq_ok_iff :
    strOf ws = .ok t ↔ ∃ n data, ws = n :: data ∧ data.length = strWords n.toNat ∧ t = unpackStr n.toNat data := by
  cases ws with
  | nil => simp [strOf]
  | cons n data => by_cases h : data.length = strWords n.toNat <;> simp [strOf, h, eq_comm]

theorem strOf_strArgs (h : t.length ≤ strMax 0) : strOf (strArgs t) = .ok t := by
  have hn : (BitVec.ofNat 32 t.length).toNat = t.length := Nat.mod_eq_of_lt (by unfold strMax at h; omega)
  exact strOf_eq_ok_iff.mpr ⟨_, _, rfl, by rw [hn, packStr_length], by rw [hn, unpackStr_packStr]⟩

/-- An encoded string has as many argument words as the operand it was decoded from. -/
theorem strArgs_length_of_strOf (h : strOf ws = .ok t) : (strArgs t).length = ws.length := by
  obtain ⟨n, data, rfl, hn, rfl⟩ := strOf_eq_ok_iff.mp h
  rw [strArgs_length, unpackStr_length hn, List.length_cons, hn, Nat.add_comm]

/-! ## Round trip -/

/-- A string that fits behind some argument words is one that fits alone. -/
theorem strMax_le (fixed : Nat) : strMax fixed ≤ strMax 0 := Nat.mul_le_mul_left 4 (Nat.sub_le_sub_left fixed.zero_le 254)

/-- The argument words of a well-formed command are as many as a header can announce (R85). -/
theorem args_length_lt (h : i.wf = true) : i.args.length < 256 := by
  cases i
  case fnt | tmap | fdraw | loadtm | loadfnt =>
    have hfit := Laws.Framed.fits (by decide) (of_decide_eq_true h)
    simp only [Instr.args, List.length_cons]
    omega
  all_goals simp [Instr.args]

/-- The row of a well-formed command reads its argument words back (R94). -/
theorem decodeArgs_args (h : i.wf = true) : decodeArgs i.opcode i.args = .ok i := by
  cases i
  case fnt | tmap | fdraw | loadtm | loadfnt =>
    simp [decodeArgs, Instr.opcode, Instr.args, strOf_strArgs ((of_decide_eq_true h).trans (strMax_le _)), Except.map]
  case drawen | sflip => simp [decodeArgs, Instr.opcode, Instr.args, boolOf_boolWord]
  case clear | fcolor | palpushrgb => simp [decodeArgs, Instr.opcode, Instr.args, rgbOf_rgbWord]
  all_goals rfl

/-! ## What a row lets through -/

/-- R92's `ceil(n / 4)` data words. -/
theorem strWords_eq_ceil (n : Nat) : (strWords n : ℤ) = ⌈(n : ℚ) / 4⌉ := by
  simpa [strWords] using Machine.natCeilDiv_eq (n := n) (d := 4) (by decide)

theorem map_eq_ok_iff {α β ε : Type} {f : α → β} {x : Except ε α} {b : β} : x.map f = .ok b ↔ ∃ a, x = .ok a ∧ f a = b := by
  cases x <;> simp [Except.map]

/-- A `STR` operand that decodes, behind the operands before it, has a count that R97 allows. -/
theorem countAllowed_of_strOf {pre str : List Word} (hf : (opc, pre.length) ∈ Spec.stringOpcodes) (h : strOf str = .ok t) :
    Spec.CountAllowed opc (pre ++ str) := by
  obtain ⟨n, data, rfl, hn, -⟩ := strOf_eq_ok_iff.mp h
  refine .inr ⟨pre.length, n, hf, by simp, ?_⟩
  rw [← strWords_eq_ceil, List.length_append, List.length_cons, hn]
  push_cast
  ring

/-- What a row that ends in a string answers, when its command `f` writes the fixed operands `pre` before the string. -/
theorem stringRow_ok {pre str : List Word} {f : Bytes → Instr} (hpre : (opc, pre.length) ∈ Spec.stringOpcodes)
    (hf : ∀ t, (f t).opcode = opc ∧ (f t).args = pre ++ strArgs t) (h : (strOf str).map f = .ok i) :
    i.opcode = opc ∧ i.args.length = (pre ++ str).length ∧ Spec.CountAllowed opc (pre ++ str) := by
  obtain ⟨t, ht, rfl⟩ := map_eq_ok_iff.mp h
  obtain ⟨hopc, hargs⟩ := hf t
  exact ⟨hopc, by simp [hargs, strArgs_length_of_strOf ht], countAllowed_of_strOf hpre ht⟩

/-- What a row answers: a command of its opcode with as many argument words, of a count that the row allows. -/
theorem decodeArgs_ok (h : decodeArgs opc args = .ok i) :
    i.opcode = opc ∧ i.args.length = args.length ∧ Spec.CountAllowed opc args := by
  unfold decodeArgs at h
  split at h
  case h_15 | h_20 => exact stringRow_ok (pre := []) (by decide) (fun _ => ⟨rfl, rfl⟩) h
  case h_19 =>
    split at h
    next x y str => exact stringRow_ok (pre := [x, y]) (by simp [Spec.stringOpcodes]) (fun _ => ⟨rfl, rfl⟩) h
    next => cases h
  case h_32 =>
    split at h
    next b w h' c str => exact stringRow_ok (pre := [b, w, h', c]) (by simp [Spec.stringOpcodes]) (fun _ => ⟨rfl, rfl⟩) h
    next => cases h
  case h_33 =>
    split at h
    next k str => exact stringRow_ok (pre := [k]) (by simp [Spec.stringOpcodes]) (fun _ => ⟨rfl, rfl⟩) h
    next => cases h
  case h_34 => cases h
  all_goals split at h <;> cases h <;> exact ⟨rfl, rfl, .inl (by simp [Spec.fixedCounts])⟩

/-- Every listed opcode without a string reads every list of argument words of a count that it allows (R96). -/
theorem exists_decodeArgs_of_fixed : ∀ r ∈ Spec.fixedCounts, ∀ n ∈ r.2, ∀ f : Fin n → Word,
    ∃ i, decodeArgs r.1 (List.ofFn f) = .ok i := by
  simp only [Spec.fixedCounts, List.cons_append, List.nil_append, List.forall_mem_cons, List.not_mem_nil, false_imp_iff, implies_true,
    and_true]
  and_intros <;> exact fun f => ⟨_, rfl⟩

/-- A `STR` operand of the length that its count announces decodes (R97). -/
theorem exists_strOf {n : Word} (h0 : ws[0]? = some n) (hl : (ws.length : ℤ) = 1 + ⌈(n.toNat : ℚ) / 4⌉) :
    ∃ t, strOf ws = .ok t := by
  cases ws with
  | nil => cases h0
  | cons m data =>
    cases h0
    refine ⟨_, strOf_eq_ok_iff.mpr ⟨_, data, rfl, ?_, rfl⟩⟩
    rw [← strWords_eq_ceil, List.length_cons] at hl
    omega

/-- Every row that ends in a string reads every list of its fixed operands and a `STR` operand that decodes (R94, R97). -/
theorem exists_decodeArgs_of_string : ∀ r ∈ Spec.stringOpcodes, ∀ (f : Fin r.2 → Word) (str : List Word) (t : Bytes),
    strOf str = .ok t → ∃ i, decodeArgs r.1 (List.ofFn f ++ str) = .ok i := by
  simp only [Spec.stringOpcodes, List.forall_mem_cons, List.not_mem_nil, false_imp_iff, implies_true, and_true]
  and_intros <;> exact fun f str t ht => ⟨_, map_eq_ok_iff.mpr ⟨t, ht, rfl⟩⟩

/-- A row decodes exactly the argument words of a count that it allows (R96, R97). -/
theorem exists_decodeArgs_iff : (∃ i, decodeArgs opc args = .ok i) ↔ Spec.CountAllowed opc args := by
  refine ⟨fun ⟨i, h⟩ => (decodeArgs_ok h).2.2, ?_⟩
  rintro (⟨l, hl, hn⟩ | ⟨f, n, hf, h0, hl⟩)
  · have hrow := exists_decodeArgs_of_fixed _ hl _ hn args.get
    rwa [List.ofFn_get] at hrow
  · have hle : f ≤ args.length := (List.getElem?_eq_some_iff.mp h0).1.le
    obtain ⟨t, ht⟩ := exists_strOf (ws := args.drop f) (n := n) (by simpa using h0) (by rw [List.length_drop]; omega)
    have hpre : (opc, (args.take f).length) ∈ Spec.stringOpcodes := by rwa [List.length_take_of_le hle]
    have hrow := exists_decodeArgs_of_string _ hpre (args.take f).get _ t ht
    rwa [List.ofFn_get, List.take_append_drop] at hrow

/-- A string operand is refused for its count or its length, not for the opcode. -/
theorem strOf_map_ne_reserved (ws : List Word) (f : Bytes → Instr) : (strOf ws).map f ≠ .error .reservedOpcode := by
  unfold strOf
  split
  · nofun
  · split <;> nofun

/-- A listed opcode's row never answers that the opcode is reserved (R98). -/
theorem decodeArgs_ne_reserved (ho : opcodeListed opc = true) : decodeArgs opc args ≠ .error .reservedOpcode := by
  intro h
  unfold decodeArgs at h
  split at h
  case h_15 | h_20 => exact strOf_map_ne_reserved _ _ h
  case h_19 | h_32 | h_33 =>
    split at h
    · exact strOf_map_ne_reserved _ _ h
    · cases h
  case h_34 => simp_all [opcodeListed]
  all_goals split at h <;> cases h

/-! ## Bytes of a string -/

/-- Byte `k` of the data words lies in word `floor(k / 4)` (R92). -/
theorem getElem?_flatMap_wordBytes (data : List Word) (k : Nat) :
    (data.flatMap wordBytes)[k]? = data[k / 4]?.map fun w => BitVec.ofNat 8 (w.toNat / 2 ^ (8 * (k % 4)) % 256) := by
  induction data generalizing k with
  | nil => rfl
  | cons w data ih =>
    have hw : (wordBytes w).length = 4 := rfl
    rw [List.flatMap_cons]
    by_cases hk : k < 4
    · rw [List.getElem?_append_left (hw ▸ hk), Nat.div_eq_of_lt hk, Nat.mod_eq_of_lt hk]
      interval_cases k <;> simp [wordBytes, bits]
    · obtain ⟨j, rfl⟩ : ∃ j, k = j + 4 := ⟨k - 4, by omega⟩
      rw [List.getElem?_append_right (by omega), hw, Nat.add_sub_cancel, ih, Nat.add_mod_right, Nat.add_div_right _ (by decide),
        List.getElem?_cons_succ]

/-! ## Small operands -/

theorem rgbOf_eq_setWidth (w : Word) : rgbOf w = w.setWidth 24 := by
  apply BitVec.eq_of_toNat_eq
  simp [rgbOf, bits]

end Rows

end Sys2Proof

end

section
open Sys2Proof Sys2Proof.Spec

/-- Settles O2: behind its header, each row reads back the argument words that the encoder writes. -/
theorem decodeOfEncode : Obligations.DecodeOfEncode := fun i h =>
  (decode_header (opcodeListed_opcode i) (args_length_lt h)).trans (decodeArgs_args h)

/-- Settles O3: a header with a zero `RSV` is its opcode and its count, and a row keeps both. -/
theorem decodedCommandIsWellFormed : Obligations.DecodedCommandIsWellFormed := by
  rintro (_ | ⟨hdr, args⟩) i h
  · cases h
  · have hn := length_eq_hdrNw_of_decode h
    obtain ⟨-, hrsv, hargs⟩ := (decode_eq_ok_iff hn).mp h
    obtain ⟨hopc, hlen, -⟩ := decodeArgs_ok hargs
    have hhdr : header i.opcode i.args.length = hdr := by rw [hopc, hlen, hn, header_of_fields hrsv]
    exact ⟨wf_of_decode h, by simp [encode, hlen], by simp [encode, hhdr]⟩

/-- Settles O4: the opcodes outside R98's ranges are those listed, and a row decodes exactly the counts that it allows. -/
theorem legalCommandsExactly : Obligations.LegalCommandsExactly := by
  intro hdr args hn
  have hlt : hdrOpc hdr < 256 := Nat.mod_lt _ (by decide)
  simp only [decode_eq_ok_iff hn, opcodeListed_iff, hlt, true_and, exists_and_left, exists_decodeArgs_iff]

/-- Settles O5: the check of the opcode comes before the checks of `RSV` and of the row, and no row answers it again. -/
theorem reservedOpcodesRefused : Obligations.ReservedOpcodesRefused := by
  intro hdr args hn
  have hlt : hdrOpc hdr < 256 := Nat.mod_lt _ (by decide)
  by_cases ho : opcodeListed (hdrOpc hdr) = true
  · have hne : decode (hdr :: args) ≠ .error .reservedOpcode := by
      by_cases hr : hdrRsv hdr = 0 <;> simp [decode, hn, ho, hr, decodeArgs_ne_reserved ho]
    exact iff_of_false hne (opcodeListed_iff.mp ho).2
  · have hres : reservedOpcode (hdrOpc hdr) := not_not.mp fun h => ho (opcodeListed_iff.mpr ⟨hlt, h⟩)
    exact iff_of_true (by simp [decode, hn, ho]) hres

/-- Settles O6: the data words fill the rest of the command, so each row of a string decodes;
a byte's place in them is its place in the string. -/
theorem stringBytesPackedLittleEndian : Obligations.StringBytesPackedLittleEndian := by
  refine ⟨fun a b c d n data hdata => ?_, fun n data hdata => ⟨unpackStr_length hdata, fun k hk => ?_⟩⟩
  · have hstr : strOf (n :: data) = .ok (unpackStr n.toNat data) :=
      strOf_eq_ok_iff.mpr ⟨n, data, rfl, by rw [← strWords_eq_ceil] at hdata; exact_mod_cast hdata, rfl⟩
    dsimp only
    refine ⟨fun hn => ⟨?_, ?_⟩, fun hn => ?_, fun hn => ?_, fun hn => ?_⟩ <;>
      exact (decode_header (by decide) (by simp only [List.length_cons]; omega)).trans (map_eq_ok_iff.mpr ⟨_, hstr, rfl⟩)
  · have hlt : k / 4 < data.length := by rw [hdata, strWords]; omega
    refine ⟨data[k / 4], List.getElem?_eq_getElem hlt, ?_⟩
    rw [unpackStr, List.getElem?_take_of_lt hk, getElem?_flatMap_wordBytes, List.getElem?_eq_getElem hlt, Option.map_some]

/-- Settles O1: each row is what `decodeArgs` makes of the operands behind a legal header; the examples are evaluated. -/
theorem specWordsDecode : Obligations.SpecWordsDecode := by
  refine ⟨fun a b c d e f g => ?_, fun hdr => ?_, fun w => ⟨?_, rfl⟩, rfl, ?_, ?_, rfl, rfl, rfl, rfl, rfl, rfl, rfl, rfl⟩
  · simp only [← rgbOf_eq_setWidth]
    and_intros <;> exact decode_header (by decide) (by simp)
  · have hlt := hdr.isLt
    refine ⟨?_, rfl, ?_⟩ <;> simp only [hdrOpc, hdrRsv, bits] <;> omega
  · rw [Machine.intOf, BitVec.toInt_eq_toNat_cond]
    split_ifs <;> omega
  · show ((0x00080000 : ℤ) : ℚ) / 65536 = 8
    norm_num
  · show ((0x00048000 : ℤ) : ℚ) / 65536 = 9 / 2
    norm_num

/-- Settles O7: the colour's number is `256 · w[23:0] + 255`. -/
theorem rgbOperandIsOpaque : Obligations.RgbOperandIsOpaque := by
  refine fun w => ⟨rfl, rfl, rfl, ?_⟩
  simp only [bits, Machine.rgbaOf, rgbOf, BitVec.toNat_ofNat]
  omega

end

section
/-! SUPPORT. Gating (R101, R102) and the illegal command (R99): a gated command passes the gate; the operations of the other commands
commute with a write of `DRAW_EN`. -/

namespace Sys2Proof.Machine

section Gate
variable {s : State} {i : Instr}

/-! ## The gate and the illegal command -/

/-- Every gated command is an effect behind the gate (R101). -/
theorem exec_of_isGated (h : isGated i = true) : ∃ f, ∀ s, exec i s = .next (gated f s) := by
  cases i
  case nop | drawen | prerender | postrender | fnt | tmap | tmode => cases h
  case palpush | palpushrgb | palindex | palcolor | palupdate | loadtm | loadfnt => cases h
  all_goals exact ⟨_, fun _ => rfl⟩

theorem step_of_illegal {e : DecodeError} (hr : commandReady s = true) (hd : decode s.asm = .error e) :
    step s = .next (discardIllegal s.retire) := by
  simp [step, hr, hd]

/-! ## Operations that do not look at `DRAW_EN` -/

/-- `f` neither reads nor writes `DRAW_EN`. -/
def IgnoresDrawEn (f : State → State) : Prop := ∀ s b, f (s.setDrawEn b) = (f s).setDrawEn b

/-- `f` neither reads nor writes `DRAW_EN`, and its answer does not depend on it. -/
def AnswerIgnoresDrawEn {α : Type} (f : State → α × State) : Prop :=
  ∀ s b, f (s.setDrawEn b) = ((f s).1, (f s).2.setDrawEn b)

theorem texRead8_ignoresDrawEn (a : Nat) : AnswerIgnoresDrawEn (texRead8 a) := by
  intro s b
  have hr : racesAt (s.setDrawEn b) a = racesAt s a := rfl
  unfold texRead8
  rw [hr]
  split <;> rfl

theorem texWrite8_ignoresDrawEn (a : Nat) (v : Byte) : IgnoresDrawEn (texWrite8 a v) := by
  intro s b
  have hr : racesAt (s.setDrawEn b) a = racesAt s a := rfl
  unfold texWrite8
  rw [hr]
  split <;> rfl

theorem palPush_ignoresDrawEn (c : Word) : AnswerIgnoresDrawEn (palPush c) := by
  intro s b
  have hi : palIndex c (s.setDrawEn b) = palIndex c s := rfl
  unfold palPush
  rw [hi]
  split
  · rfl
  · symm
    exact apply_ite (Prod.map id (State.setDrawEn · b)) (s.pal.length < s.cfg.palCap) _ _

theorem readPixel_ignoresDrawEn (a : Nat) : AnswerIgnoresDrawEn (readPixel a) := by
  intro s b
  simp only [readPixel, texRead8_ignoresDrawEn _ _ b]

theorem writePixel_ignoresDrawEn (a k : Nat) : IgnoresDrawEn (writePixel a k) := by
  intro s b
  simp only [writePixel, texWrite8_ignoresDrawEn _ _ _ b]

theorem palettizePixel_ignoresDrawEn (a : Nat) : AnswerIgnoresDrawEn (palettizePixel a) := by
  intro s b
  simp only [palettizePixel, readPixel_ignoresDrawEn _ _ b, palPush_ignoresDrawEn _ _ b, writePixel_ignoresDrawEn _ _ _ b]

theorem palettize_ignoresDrawEn (base w h : Nat) : AnswerIgnoresDrawEn (palettize base w h) := by
  intro s b
  unfold palettize
  exact List.foldl_hom (Prod.map id (State.setDrawEn · b)) (init := ([], s)) fun x p => by
    simp only [Prod.map, palettizePixel_ignoresDrawEn _ _ b, id_eq]

theorem pushResult_ignoresDrawEn (c : Word) : IgnoresDrawEn (pushResult c) := by
  intro s b
  simp only [pushResult, palPush_ignoresDrawEn _ _ b]
  rfl

theorem loadImage_ignoresDrawEn (base w h cell : Int) (name : Bytes) : IgnoresDrawEn (loadImage base w h cell name) := by
  intro s b
  simp only [loadImage, palettize_ignoresDrawEn _ _ _ _ b]
  rfl

/-- A choice that does not depend on `DRAW_EN`, between two operations that do not. -/
theorem IgnoresDrawEn.ite {p : State → Prop} [DecidablePred p] {f g : State → State} (hp : ∀ s b, p (s.setDrawEn b) ↔ p s)
    (hf : IgnoresDrawEn f) (hg : IgnoresDrawEn g) : IgnoresDrawEn fun s => if p s then f s else g s := by
  intro s b
  simp only [hp, hf s b, hg s b, apply_ite (State.setDrawEn · b)]

/-- Every command that is not gated, but `DRAWEN`, runs an operation that does not look at `DRAW_EN` (R102). -/
theorem exec_of_not_isGated (h : isGated i = false) (hne : ∀ c, i ≠ .drawen c) :
    ∃ f, (∀ s, exec i s = .next (f s)) ∧ IgnoresDrawEn f := by
  cases i
  case drawen c => exact absurd rfl (hne c)
  case nop | prerender => exact ⟨id, fun _ => rfl, fun _ _ => rfl⟩
  case postrender | tmode | palindex | palcolor | palupdate => exact ⟨_, fun _ => rfl, fun _ _ => rfl⟩
  case fnt name =>
    refine ⟨_, fun _ => rfl, fun s b => ?_⟩
    simp only [State.setDrawEn_font]
    split <;> rfl
  case tmap name =>
    refine ⟨_, fun _ => rfl, fun s b => ?_⟩
    simp only [State.setDrawEn_tm]
    split <;> rfl
  case palpush c => exact ⟨_, fun _ => rfl, pushResult_ignoresDrawEn c⟩
  case palpushrgb c => exact ⟨_, fun _ => rfl, pushResult_ignoresDrawEn (rgbaOf c)⟩
  case loadtm => exact ⟨_, fun _ => rfl, .ite (fun _ _ => Iff.rfl) (loadImage_ignoresDrawEn _ _ _ _ _) fun _ _ => rfl⟩
  case loadfnt => exact ⟨_, fun _ => rfl, .ite (fun _ _ => Iff.rfl) (fun _ _ => rfl) fun _ _ => rfl⟩
  all_goals cases h

end Gate

end Sys2Proof.Machine

section
open Sys2Proof Sys2Proof.Machine

/-- Settles O9: the step discards the command, and `discardIllegal` sets `ERR_ILL` alone. -/
theorem illegalCommandDiscarded : Obligations.IllegalCommandDiscarded := fun _ _ hr hd => step_of_illegal hr hd

/-- Settles O13: a gated command is an effect behind the gate. -/
theorem gatedCommandsIdle : Obligations.GatedCommandsIdle := by
  refine fun i s => ⟨?_, fun hg hoff => ?_⟩
  · cases i <;> simp [isGated, Instr.opcode, Spec.gatedOpcodes]
  · obtain ⟨f, hf⟩ := exec_of_isGated hg
    rw [hf, gated_off hoff]

/-- Settles O14: a command that is not gated runs an operation that does not look at `DRAW_EN`. -/
theorem ungatedCommandsIgnoreDrawEnable : Obligations.UngatedCommandsIgnoreDrawEnable := by
  refine fun s b => ⟨fun i t hg hne h => ?_, fun c => ⟨rfl, rfl⟩⟩
  obtain ⟨f, hexec, hf⟩ := exec_of_not_isGated hg hne
  obtain rfl := Host.Outcome.next.inj ((hexec s).symm.trans h)
  exact (hexec _).trans (congrArg _ (hf s b))

end
end

section
/-! SUPPORT. A push by its outcome (R111), said in terms of the palette's entries, and the answers of the other palette commands (R115,
R116). -/

namespace Sys2Proof.Machine

section Push
variable {s : State} {c : Word}

/-! ## Looking up -/

/-- R115: `PalIndex` answers an index exactly when the colour stands there and nowhere below. -/
theorem palIndex_eq_some_iff {k : Nat} : palIndex c s = some k ↔ s.pal[k]? = some c ∧ ∀ j < k, s.pal[j]? ≠ some c := by
  refine ⟨palIndex_some, fun ⟨hk, hlow⟩ => ?_⟩
  obtain ⟨hlt, hc⟩ := List.getElem?_eq_some_iff.mp hk
  refine List.findIdx?_eq_some_iff_getElem.mpr ⟨hlt, by simpa using hc, fun j hj he => hlow j hj ?_⟩
  rw [List.getElem?_eq_getElem (hj.trans hlt), beq_iff_eq.mp he]

/-- R115: `PalIndex` answers `NONE` exactly when no entry holds the colour. -/
theorem palIndex_eq_none_iff : palIndex c s = none ↔ c ∉ s.pal := by
  refine ⟨palIndex_none, fun hc => List.findIdx?_eq_none_iff.mpr fun e he => ?_⟩
  exact beq_eq_false_iff_ne.mpr fun h => hc (h ▸ he)

/-! ## The outcomes of a push -/

theorem palPush_of_index {k : Nat} (h : palIndex c s = some k) : palPush c s = (k, s) := by
  simp [palPush, h]

theorem palPush_of_room (hc : c ∉ s.pal) (hroom : s.pal.length < s.cfg.palCap) :
    palPush c s = (s.pal.length, s.setPal (s.pal ++ [c])) := by
  simp [palPush, palIndex_eq_none_iff.mpr hc, hroom]

theorem palPush_of_full (hc : c ∉ s.pal) (hfull : s.cfg.palCap ≤ s.pal.length) : palPush c s = (0, logPalOverflow s) := by
  simp [palPush, palIndex_eq_none_iff.mpr hc, Nat.not_lt.mpr hfull]

/-- A new entry is found at the old end of the palette (R112). -/
theorem palIndex_setPal_append (hc : c ∉ s.pal) : palIndex c (s.setPal (s.pal ++ [c])) = some s.pal.length := by
  refine palIndex_eq_some_iff.mpr ⟨by simp, fun j hj he => hc ?_⟩
  rw [State.setPal_pal, List.getElem?_append_left hj] at he
  exact List.mem_of_getElem? he

/-- A second push of a colour answers and leaves what the first one did (R112). -/
theorem palPush_palPush (c : Word) (s : State) : palPush c (palPush c s).2 = palPush c s := by
  rcases palPush_cases c s with ⟨k, hk, e⟩ | ⟨hn, hroom, e⟩ | ⟨hn, hfull, e⟩ <;> rw [e]
  · exact palPush_of_index hk
  · exact palPush_of_index (palIndex_setPal_append (palIndex_none hn))
  · exact palPush_of_full (s := logPalOverflow s) (palIndex_none hn) hfull

/-- The index a push answers is below `PAL_CAP` (R112). -/
theorem palPush_lt (hcap : 0 < s.cfg.palCap) (hlen : s.pal.length ≤ s.cfg.palCap) : (palPush c s).1 < s.cfg.palCap := by
  rcases palPush_cases c s with ⟨k, hk, e⟩ | ⟨-, hroom, e⟩ | ⟨-, -, e⟩ <;> rw [e]
  · exact (List.getElem?_eq_some_iff.mp (palIndex_some hk).1).1.trans_le hlen
  · exact hroom
  · exact hcap

/-! ## The answer in `RESULT` -/

theorem palPush_setResult (c : Word) (s : State) (v : Int) :
    palPush c (s.setResult v) = ((palPush c s).1, (palPush c s).2.setResult v) := by
  rcases palPush_cases c s with ⟨k, hk, e⟩ | ⟨hn, hroom, e⟩ | ⟨hn, hfull, e⟩ <;> rw [e]
  · exact palPush_of_index (s := s.setResult v) hk
  · exact palPush_of_room (s := s.setResult v) (palIndex_none hn) hroom
  · exact palPush_of_full (s := s.setResult v) (palIndex_none hn) hfull

theorem pushResult_pushResult (c : Word) (s : State) : pushResult c (pushResult c s) = pushResult c s := by
  simp only [pushResult, palPush_setResult, palPush_palPush]
  rfl

theorem setResult_natCast (s : State) (n : Nat) : s.setResult n = { s with result := BitVec.ofNat 32 n } := by
  simp [State.setResult]

theorem setResult_toNat (s : State) (w : Word) : s.setResult w.toNat = { s with result := w } := by
  simp [setResult_natCast]

/-! ## Parameters and colours -/

/-- R123: the palette's capacity fits a byte. -/
theorem palCap_bounds {g : Config} (h : g.wf = true) : 2 ≤ g.palCap ∧ g.palCap ≤ 256 := by
  simp only [Config.wf, Bool.and_eq_true, decide_eq_true_eq] at h
  omega

/-- R91: an `RGB` operand is an opaque colour. -/
theorem rgbaOf_eq_append (d : BitVec 24) : rgbaOf d = d ++ (0xFF : BitVec 8) := by
  apply BitVec.eq_of_toNat_eq
  rw [BitVec.toNat_append, ← Nat.shiftLeft_add_eq_or_of_lt (BitVec.isLt _)]
  simp only [rgbaOf, BitVec.toNat_ofNat, Nat.shiftLeft_eq, BitVec.reduceToNat]
  omega

end Push

end Sys2Proof.Machine

section
open Sys2Proof Sys2Proof.Machine

/-- Settles O39: one lemma of `PalPush` an outcome. -/
theorem palpushReturnsIndex : Obligations.PalpushReturnsIndex := by
  intro s c d
  have hexec : exec (.palpush c) s = .next ((palPush c s).2.setResult (palPush c s).1) := rfl
  refine ⟨fun k hk hlow => ?_, fun hc hroom => ?_, fun hc hfull => ?_, pushResult (rgbaOf d) s, rfl, ?_⟩
  · rw [hexec, palPush_of_index (palIndex_eq_some_iff.mpr ⟨hk, hlow⟩), setResult_natCast]
  · rw [hexec, palPush_of_room hc hroom, setResult_natCast]
    rfl
  · rw [hexec, palPush_of_full hc hfull]
    rfl
  · rw [rgbaOf_eq_append]
    rfl

/-- Settles O40: the index or `NONE` by where the colour stands, the entry by the operand's range. -/
theorem paletteReadsAndUpdate : Obligations.PaletteReadsAndUpdate := by
  intro s c i
  have hindex : exec (.palindex c) s = .next (s.setResult (match palIndex c s with | some k => k | none => -1)) := rfl
  have hcolor : exec (.palcolor i) s =
    .next (s.setResult (if 0 ≤ intOf i then (s.pal.getD (intOf i).toNat 0).toNat else 0)) := rfl
  refine ⟨fun k hk hlow => ?_, fun hc => ?_, fun e hi he => ?_, fun hi => ?_, rfl⟩
  · rw [hindex, palIndex_eq_some_iff.mpr ⟨hk, hlow⟩]
    exact congrArg _ (setResult_natCast s k)
  · rw [hindex, palIndex_eq_none_iff.mpr hc]
    rfl
  · rw [hcolor, if_pos hi, List.getD_eq_getElem?_getD, he, Option.getD_some, setResult_toNat]
  · rw [hcolor]
    split
    · have hle : s.pal.length ≤ (intOf i).toNat := by omega
      rw [List.getD_eq_default _ _ hle]
      rfl
    · rfl

/-- Settles O41: the second push leaves the very state of the first. -/
theorem pushTwiceSameIndex : Obligations.PushTwiceSameIndex := by
  rintro s c hcfg ⟨-, -, hlen, -⟩
  obtain ⟨hlow, hhigh⟩ := palCap_bounds hcfg
  have hlt : (palPush c s).1 < s.cfg.palCap := palPush_lt (by omega) hlen
  refine ⟨pushResult c s, _, rfl, congrArg Host.Outcome.next (pushResult_pushResult c s), rfl, rfl, ?_⟩
  have hres : (pushResult c s).result = BitVec.ofNat 32 (palPush c s).1 := BitVec.ofInt_natCast 32 _
  rw [hres, BitVec.toNat_ofNat, Nat.mod_eq_of_lt (by omega)]
  exact hlt

end
end

section
/-! SUPPORT. The palettizer's loop without a race (R131, R132): what the image, the palette, the overflow bit and the indices touched are
after the visits of a list of pixels. -/

namespace Sys2Proof.Machine

section Palettizer
variable {s t u : State} {A B : Nat → Prop} {a base w : Nat} {c : Word} {acc : List Nat × State} {l : List (Nat × Nat)} {p : Nat × Nat}

/-! ## What a push leaves in the palette -/

theorem pushColor_of_mem {cap : Nat} {pal : List Word} (h : c ∈ pal) : Spec.pushColor cap pal c = pal := if_pos (.inl h)

theorem pushColor_of_full {cap : Nat} {pal : List Word} (h : cap ≤ pal.length) : Spec.pushColor cap pal c = pal := if_pos (.inr h)

theorem pushColor_of_room {cap : Nat} {pal : List Word} (hc : c ∉ pal) (h : pal.length < cap) :
    Spec.pushColor cap pal c = pal ++ [c] := if_neg (by simp [hc, h])

/-- The palette after a push is R111's. -/
theorem palPush_pal (c : Word) (s : State) : (palPush c s).2.pal = Spec.pushColor s.cfg.palCap s.pal c := by
  rcases palPush_cases c s with ⟨k, hk, e⟩ | ⟨hn, hroom, e⟩ | ⟨-, hfull, e⟩ <;> rw [e]
  · exact (pushColor_of_mem (List.mem_of_getElem? (palIndex_some hk).1)).symm
  · exact (pushColor_of_room (palIndex_none hn) hroom).symm
  · exact (pushColor_of_full hfull).symm

/-- A push answers the colour's index, or 0 where the palette is full without it (R111). -/
theorem palPush_index (c : Word) (s : State) :
    (palPush c s).2.pal[(palPush c s).1]? = some c ∨
      ((palPush c s).1 = 0 ∧ (palPush c s).2.palOvf = true ∧ s.cfg.palCap ≤ (palPush c s).2.pal.length ∧ c ∉ (palPush c s).2.pal) := by
  rcases palPush_cases c s with ⟨k, hk, e⟩ | ⟨-, -, e⟩ | ⟨hn, hfull, e⟩ <;> rw [e]
  · exact .inl (palIndex_some hk).1
  · exact .inl (by simp)
  · exact .inr ⟨rfl, rfl, hfull, palIndex_none hn⟩

/-- A push sets `PAL_OVF` exactly when the colour is not in the palette after it (R111). -/
theorem palPush_palOvf (c : Word) (s : State) : (palPush c s).2.palOvf = true ↔ s.palOvf = true ∨ c ∉ (palPush c s).2.pal := by
  rcases palPush_cases c s with ⟨k, hk, e⟩ | ⟨-, -, e⟩ | ⟨hn, -, e⟩ <;> rw [e]
  · simp [List.mem_of_getElem? (palIndex_some hk).1]
  · simp
  · simp [palIndex_none hn]

/-! ## Reading and writing one pixel -/

/-- The colour that the four bytes at `a` hold (R132). -/
def colorAt (s : State) (a : Nat) : Word := s.texByte a ++ s.texByte (a + 1) ++ s.texByte (a + 2) ++ s.texByte (a + 3)

theorem readPixel_quiet (h : s.raced = []) (a : Nat) : readPixel a s = (colorAt s a, s) := by
  simp only [readPixel, texRead8_quiet h, colorAt]

theorem texByte_texWrite8 (h : s.raced = []) (a : Nat) (v : Byte) (b : Nat) :
    (texWrite8 a v s).texByte b = if b = a then v else s.texByte b := by
  rw [texWrite8_quiet h, State.texByte_storeByte]

@[simp] theorem texWrite8_raced (a : Nat) (v : Byte) (s : State) : (texWrite8 a v s).raced = s.raced := by
  obtain ⟨b, k, e⟩ := texWrite8_state a v s
  rw [e]
  rfl

@[simp] theorem texWrite8_pal (a : Nat) (v : Byte) (s : State) : (texWrite8 a v s).pal = s.pal := by
  obtain ⟨b, k, e⟩ := texWrite8_state a v s
  rw [e]
  rfl

@[simp] theorem texWrite8_palOvf (a : Nat) (v : Byte) (s : State) : (texWrite8 a v s).palOvf = s.palOvf := by
  obtain ⟨b, k, e⟩ := texWrite8_state a v s
  rw [e]
  rfl

/-- The bytes after the writes of a visit (R132). -/
theorem texByte_writePixel (h : s.raced = []) (a i b : Nat) :
    (writePixel a i s).texByte b =
      if b = a + 3 then 255 else if b = a + 2 then BitVec.ofNat 8 i else if b = a + 1 then 0 else if b = a then 0 else s.texByte b := by
  simp only [writePixel, texByte_texWrite8, texWrite8_raced, h]

/-! ## What palettizing keeps -/

/-- What the loop needs of its state: no race, and a palette within a capacity that fits a byte (R30, R123). -/
structure LoadReady (s : State) : Prop where
  quiet : s.raced = []
  cap_pos : 0 < s.cfg.palCap
  cap_le : s.cfg.palCap ≤ 256
  length_le : s.pal.length ≤ s.cfg.palCap

theorem Palettized.cfg (h : Palettized A s t) : t.cfg = s.cfg := by
  obtain ⟨l, o, m, k, rfl, -⟩ := h
  rfl

theorem Palettized.loadReady (h : Palettized A s t) (hs : LoadReady s) : LoadReady t := by
  obtain ⟨l, o, m, k, rfl, -, -, hlen, -⟩ := h
  exact ⟨hs.quiet, hs.cap_pos, hs.cap_le, hlen hs.length_le⟩

theorem Palettized.mono (h : Palettized A s t) (hAB : ∀ b, A b → B b) : Palettized B s t := by
  obtain ⟨l, o, m, k, e, ho, hnd, hlen, hwf, hmem, hb⟩ := h
  exact ⟨l, o, m, k, e, ho, hnd, hlen, hwf, fun d hd => (hmem d hd).imp_left (hAB _), fun b hnb => hb b fun ha => hnb (hAB b ha)⟩

theorem Palettized.pal_prefix (h : Palettized A s t) : s.pal <+: t.pal := by
  obtain ⟨l, o, m, k, rfl, -⟩ := h
  exact List.prefix_append _ _

theorem Palettized.palOvf (h : Palettized A s t) (hs : s.palOvf = true) : t.palOvf = true := by
  obtain ⟨l, o, m, k, rfl, ho, -⟩ := h
  exact ho hs

/-- A full palette stays as it is. -/
theorem Palettized.pal_of_full (h : Palettized A s t) (hfull : s.pal.length = s.cfg.palCap) : t.pal = s.pal := by
  obtain ⟨l, o, m, k, rfl, -, -, hlen, -⟩ := h
  have hle := hlen hfull.le
  rw [List.length_append] at hle
  simp [List.eq_nil_of_length_eq_zero (l := l) (by omega)]

/-! ## A palettized pixel -/

/-- The four bytes of the pixel at `a`. -/
def pixelBytes (a b : Nat) : Prop := a ≤ b ∧ b < a + 4

/-- R132, R134: the bytes at `a` are `(0, 0, index, 255)`, and the palette holds `c` at the index, or it is full without `c` and the
index is 0. -/
def PixelStored (t : State) (a : Nat) (c : Word) : Prop :=
  t.texByte a = 0 ∧ t.texByte (a + 1) = 0 ∧ t.texByte (a + 3) = 255 ∧
    (t.pal[(t.texByte (a + 2)).toNat]? = some c ∨
      (t.texByte (a + 2) = 0 ∧ t.palOvf = true ∧ t.pal.length = t.cfg.palCap ∧ c ∉ t.pal))

/-- Palettizing other pixels leaves a palettized one so. -/
theorem PixelStored.of_palettized (hp : PixelStored t a c) (h : Palettized A t u) (hA : ∀ b, pixelBytes a b → ¬ A b) :
    PixelStored u a c := by
  have hbyte : ∀ k < 4, u.texByte (a + k) = t.texByte (a + k) := fun k hk => h.texByte (hA _ ⟨by omega, by omega⟩)
  obtain ⟨h0, h1, h3, hidx⟩ := hp
  refine ⟨(hbyte 0 (by decide)).trans h0, (hbyte 1 (by decide)).trans h1, (hbyte 3 (by decide)).trans h3, ?_⟩
  rw [hbyte 2 (by decide)]
  rcases hidx with hc | ⟨h2, hovf, hfull, hc⟩
  · obtain ⟨m, hm⟩ := h.pal_prefix
    exact .inl (by rw [← hm, List.getElem?_append_left (List.getElem?_eq_some_iff.mp hc).1, hc])
  · have hpal := h.pal_of_full hfull
    exact .inr ⟨h2, h.palOvf hovf, by rw [hpal, hfull, h.cfg], by rwa [hpal]⟩

/-- Palettizing on finds no room for the colour of a palettized pixel that had none. -/
theorem PixelStored.mem_iff (hp : PixelStored t a c) (h : Palettized A t u) : c ∈ u.pal ↔ c ∈ t.pal := by
  obtain ⟨-, -, -, hc | ⟨-, -, hfull, -⟩⟩ := hp
  · have hmem := List.mem_of_getElem? hc
    exact iff_of_true (h.pal_prefix.subset hmem) hmem
  · rw [h.pal_of_full hfull]

/-! ## One visit -/

theorem palettizePixel_quiet (h : s.raced = []) (a : Nat) :
    palettizePixel a s = ((palPush (colorAt s a) s).1, writePixel a (palPush (colorAt s a) s).1 (palPush (colorAt s a) s).2) := by
  simp only [palettizePixel, readPixel_quiet h]

/-- A visit changes the palette and the overflow bit as its push does. -/
theorem palettizePixel_push (h : s.raced = []) (a : Nat) :
    (palettizePixel a s).2.pal = (palPush (colorAt s a) s).2.pal ∧
      (palettizePixel a s).2.palOvf = (palPush (colorAt s a) s).2.palOvf := by
  simp [palettizePixel_quiet h, writePixel]

/-- A visit stores only bytes of its pixel. -/
theorem palettizePixel_palettized (a : Nat) (s : State) : Palettized (pixelBytes a) s (palettizePixel a s).2 := by
  apply palettizePixel_spec <;> unfold pixelBytes <;> omega

/-- The bytes a visit leaves in its pixel. -/
theorem palettizePixel_bytes (h : s.raced = []) (a : Nat) :
    (palettizePixel a s).2.texByte a = 0 ∧ (palettizePixel a s).2.texByte (a + 1) = 0 ∧
      (palettizePixel a s).2.texByte (a + 2) = BitVec.ofNat 8 (palettizePixel a s).1 ∧ (palettizePixel a s).2.texByte (a + 3) = 255 := by
  have hq : (palPush (colorAt s a) s).2.raced = [] := by
    obtain ⟨l, o, e, -⟩ := palPush_state (colorAt s a) s
    rw [e]
    exact h
  simp [palettizePixel_quiet h, texByte_writePixel hq]

/-- The index a visit stores is the one it answers. -/
theorem palettizePixel_index (hs : LoadReady s) (a : Nat) :
    ((palettizePixel a s).2.texByte (a + 2)).toNat = (palettizePixel a s).1 := by
  obtain ⟨-, -, hbyte, -⟩ := palettizePixel_bytes hs.quiet a
  have hlt : (palettizePixel a s).1 < s.cfg.palCap := by
    rw [palettizePixel_quiet hs.quiet]
    exact palPush_lt hs.cap_pos hs.length_le
  have hle := hs.cap_le
  rw [hbyte, BitVec.toNat_ofNat, Nat.mod_eq_of_lt (by omega)]

/-- A visit palettizes its pixel. -/
theorem palettizePixel_stored (hs : LoadReady s) (a : Nat) : PixelStored (palettizePixel a s).2 a (colorAt s a) := by
  have hspec := palettizePixel_palettized a s
  have hlen := (hspec.loadReady hs).length_le
  obtain ⟨h0, h1, h2, h3⟩ := palettizePixel_bytes hs.quiet a
  obtain ⟨hpal, hovf⟩ := palettizePixel_push hs.quiet a
  refine ⟨h0, h1, h3, ?_⟩
  rw [hspec.cfg, hpal] at hlen
  rw [palettizePixel_index hs, h2, hovf, hspec.cfg, hpal, palettizePixel_quiet hs.quiet]
  rcases palPush_index (colorAt s a) s with hc | ⟨hi, ho, hfull, hc⟩
  · exact .inl hc
  · exact .inr ⟨congrArg (BitVec.ofNat 8) hi, ho, hlen.antisymm hfull, hc⟩

/-! ## The loop -/

/-- The pixels are apart: no byte belongs to two. -/
theorem pix_apart {q : Nat × Nat} {b : Nat} (hp : p.1 < w) (hq : q.1 < w) (hne : p ≠ q) (hb : pixelBytes (pix base w p.1 p.2) b) :
    ¬ pixelBytes (pix base w q.1 q.2) b := by
  intro hb'
  have hplace : p.2 * w + p.1 = q.2 * w + q.1 := by
    unfold pixelBytes pix at hb hb'
    omega
  have hcol : p.1 = q.1 := by
    rw [← Nat.mod_eq_of_lt hp, ← Nat.mod_eq_of_lt hq, ← Nat.mul_add_mod' p.2 w p.1, hplace, Nat.mul_add_mod']
  have hrow : p.2 = q.2 := Nat.eq_of_mul_eq_mul_right (by omega) (by omega : p.2 * w = q.2 * w)
  exact hne (Prod.ext hcol hrow)

/-- One iteration of `Palettize` (R132). -/
def visit (base w : Nat) (acc : List Nat × State) (p : Nat × Nat) : List Nat × State :=
  let r := palettizePixel (pix base w p.1 p.2) acc.2
  (acc.1.insert r.1, r.2)

theorem palettize_eq_foldl (base w h : Nat) (s : State) : palettize base w h s = (columnMajor w h).foldl (visit base w) ([], s) := rfl

/-- The bytes of a list of pixels. -/
def listBytes (base w : Nat) (l : List (Nat × Nat)) (b : Nat) : Prop := ∃ p ∈ l, pixelBytes (pix base w p.1 p.2) b

/-- The colours of a list of pixels. -/
def listColors (s : State) (base w : Nat) (l : List (Nat × Nat)) : List Word := l.map fun p => Spec.pixelColor s base w p.1 p.2

/-- The index byte of a pixel (R134). -/
def indexByte (s : State) (base w : Nat) (p : Nat × Nat) : Byte := s.texByte (pix base w p.1 p.2 + 2)

/-- What `Palettize` has done from `s` after the visits of `l`: `acc` holds the indices touched and the state. -/
structure Visited (s : State) (base w : Nat) (l : List (Nat × Nat)) (acc : List Nat × State) : Prop where
  frame : Palettized (listBytes base w l) s acc.2
  pal : acc.2.pal = (listColors s base w l).foldl (Spec.pushColor s.cfg.palCap) s.pal
  palOvf : acc.2.palOvf = true ↔ s.palOvf = true ∨ ∃ c ∈ listColors s base w l, c ∉ acc.2.pal
  stored : ∀ p ∈ l, PixelStored acc.2 (pix base w p.1 p.2) (Spec.pixelColor s base w p.1 p.2)
  nodup : acc.1.Nodup
  indices : ∀ i, i ∈ acc.1 ↔ ∃ p ∈ l, (indexByte acc.2 base w p).toNat = i

theorem Visited.nil (s : State) (base w : Nat) : Visited s base w [] ([], s) where
  frame := .refl s
  pal := rfl
  palOvf := by simp [listColors]
  stored := nofun
  nodup := List.nodup_nil
  indices := by simp

/-- A pixel not visited yet has its original colour. -/
theorem Visited.colorAt (h : Visited s base w l acc) (hl : ∀ q ∈ l, q.1 < w) (hp : p.1 < w) (hnew : p ∉ l) :
    colorAt acc.2 (pix base w p.1 p.2) = Spec.pixelColor s base w p.1 p.2 := by
  have hbyte : ∀ k < 4, acc.2.texByte (pix base w p.1 p.2 + k) = s.texByte (pix base w p.1 p.2 + k) := by
    refine fun k hk => h.frame.texByte fun ⟨q, hq, hb⟩ => ?_
    exact pix_apart hp (hl q hq) (fun e => hnew (e ▸ hq)) ⟨Nat.le_add_right _ _, Nat.add_lt_add_left hk _⟩ hb
  have h0 := hbyte 0 (by decide)
  rw [Nat.add_zero] at h0
  rw [Machine.colorAt, h0, hbyte 1 (by decide), hbyte 2 (by decide), hbyte 3 (by decide)]
  rfl

/-- One more visit. -/
theorem Visited.snoc (hs : LoadReady s) (h : Visited s base w l acc) (hl : ∀ q ∈ l, q.1 < w) (hp : p.1 < w) (hnew : p ∉ l) :
    Visited s base w (l ++ [p]) (visit base w acc p) := by
  have hready : LoadReady acc.2 := h.frame.loadReady hs
  have hcolor := h.colorAt hl hp hnew
  have hframe := palettizePixel_palettized (pix base w p.1 p.2) acc.2
  have hpush := palettizePixel_push hready.quiet (pix base w p.1 p.2)
  have hindex := palettizePixel_index hready (pix base w p.1 p.2)
  have hstored := palettizePixel_stored hready (pix base w p.1 p.2)
  rw [hcolor] at hpush hstored
  obtain ⟨hpal, hovf⟩ := hpush
  have hapart : ∀ q ∈ l, ∀ b, pixelBytes (pix base w q.1 q.2) b → ¬ pixelBytes (pix base w p.1 p.2) b :=
    fun q hq b => pix_apart (hl q hq) hp fun e => hnew (e ▸ hq)
  unfold visit
  generalize palettizePixel (pix base w p.1 p.2) acc.2 = r at *
  dsimp only
  constructor
  case frame =>
    exact (h.frame.mono fun b ⟨q, hq, hb⟩ => ⟨q, List.mem_append_left _ hq, hb⟩).trans
      (hframe.mono fun b hb => ⟨p, by simp, hb⟩)
  case pal =>
    rw [hpal, palPush_pal, h.frame.cfg, h.pal]
    simp [listColors]
  case palOvf =>
    rw [hovf, palPush_palOvf, ← hpal, h.palOvf]
    have hmem : ∀ c ∈ listColors s base w l, c ∉ r.2.pal ↔ c ∉ acc.2.pal := by
      intro c hc
      obtain ⟨q, hq, rfl⟩ := List.mem_map.mp hc
      exact not_congr ((h.stored q hq).mem_iff hframe)
    have hex : (∃ c ∈ listColors s base w l, c ∉ r.2.pal) ↔ ∃ c ∈ listColors s base w l, c ∉ acc.2.pal :=
      exists_congr fun c => and_congr_right (hmem c)
    rw [← hex]
    simp [listColors, or_assoc, or_and_right, exists_or]
  case stored =>
    intro q hq
    rcases List.mem_append.mp hq with hq | hq
    · exact (h.stored q hq).of_palettized hframe (hapart q hq)
    · rw [List.mem_singleton.mp hq]
      exact hstored
  case nodup => exact h.nodup.insert
  case indices =>
    intro i
    have hold : ∀ q ∈ l, indexByte r.2 base w q = indexByte acc.2 base w q := fun q hq =>
      hframe.texByte (hapart q hq _ ⟨by omega, by omega⟩)
    have hex : (∃ q ∈ l, (indexByte r.2 base w q).toNat = i) ↔ ∃ q ∈ l, (indexByte acc.2 base w q).toNat = i :=
      exists_congr fun q => and_congr_right fun hq => by rw [hold q hq]
    rw [List.mem_insert_iff, h.indices, ← hex, ← hindex]
    simp [indexByte, or_and_right, exists_or, or_comm, eq_comm]

/-- The loop over a list of pixels of the image, each named once. -/
theorem visited_foldl (hs : LoadReady s) (hl : ∀ q ∈ l, q.1 < w) (hnd : l.Nodup) :
    Visited s base w l (l.foldl (visit base w) ([], s)) := by
  induction l using List.reverseRecOn with
  | nil => exact .nil s base w
  | append_singleton l p ih =>
    obtain ⟨hl', hp⟩ := List.forall_mem_append.mp hl
    obtain ⟨hnd', -, hnew⟩ := List.nodup_append'.mp hnd
    rw [List.foldl_append]
    exact (ih hl' hnd').snoc hs hl' (hp p List.mem_cons_self) fun hm => hnew hm List.mem_cons_self

/-- `Palettize` visits every pixel of the image (R131). -/
theorem visited_palettize (hs : LoadReady s) (base w h : Nat) : Visited s base w (columnMajor w h) (palettize base w h s) := by
  rw [palettize_eq_foldl]
  exact visited_foldl hs (fun _ hq => (mem_columnMajor.mp hq).1) (nodup_columnMajor w h)

/-! ## The counts and the colours of the image -/

theorem listColors_columnMajor (s : State) (base w h : Nat) : listColors s base w (columnMajor w h) = Spec.imageColors s base w h := by
  simp [listColors, columnMajor, Spec.imageColors, List.map_flatMap, Function.comp_def]

/-- A list of indices without repeats that holds the values of some bytes counts the distinct ones. -/
theorem length_eq_dedup {is : List Nat} {bs : List Byte} (hnd : is.Nodup) (hmem : ∀ i, i ∈ is ↔ ∃ b ∈ bs, b.toNat = i) :
    is.length = bs.dedup.length := by
  have hnd' : (bs.dedup.map BitVec.toNat).Nodup := bs.nodup_dedup.map fun _ _ => BitVec.eq_of_toNat_eq
  have hperm : is.Perm (bs.dedup.map BitVec.toNat) := (List.perm_ext_iff_of_nodup hnd hnd').mpr fun i => by simp [hmem]
  rw [hperm.length_eq, List.length_map]

/-- `AUX` of a load: the number of distinct index bytes in the image (R133, R134). -/
theorem length_palettize (hs : LoadReady s) (base w h : Nat) :
    (palettize base w h s).1.length = ((rowMajor w h).map (indexByte (palettize base w h s).2 base w)).dedup.length := by
  have hv := visited_palettize hs base w h
  refine length_eq_dedup hv.nodup fun i => ?_
  simp [hv.indices, mem_columnMajor, mem_rowMajor]

theorem mem_imageColors {h x y : Nat} (hx : x < w) (hy : y < h) : Spec.pixelColor s base w x y ∈ Spec.imageColors s base w h := by
  rw [← listColors_columnMajor]
  exact List.mem_map.mpr ⟨(x, y), mem_columnMajor.mpr ⟨hx, hy⟩, rfl⟩

/-! ## The load -/

section Load
variable (base w h cell : Int) (name : Bytes) (s : State)

@[simp] theorem loadImage_pal : (loadImage base w h cell name s).pal = (palettize base.toNat w.toNat h.toNat s).2.pal := by
  simp [loadImage]

@[simp] theorem loadImage_palOvf : (loadImage base w h cell name s).palOvf = (palettize base.toNat w.toNat h.toNat s).2.palOvf := by
  simp [loadImage]

@[simp] theorem loadImage_texByte (a : Nat) :
    (loadImage base w h cell name s).texByte a = (palettize base.toNat w.toNat h.toNat s).2.texByte a := by
  simp [loadImage, State.texByte]

@[simp] theorem loadImage_aux :
    (loadImage base w h cell name s).aux = BitVec.ofNat 32 (palettize base.toNat w.toNat h.toNat s).1.length := by
  simp [loadImage]

end Load

theorem exec_loadtm_of_ok {base w h cell : Word} {name : Bytes} (hok : loadOk (intOf base) (intOf w) (intOf h) s = true) :
    exec (.loadtm base w h cell name) s = .next (loadImage (intOf base) (intOf w) (intOf h) (intOf cell) name s) :=
  congrArg Host.Outcome.next (if_pos hok)

end Palettizer

end Sys2Proof.Machine

section
open Sys2Proof Sys2Proof.Machine

/-- Settles O44: what the loop has done after the visits of every pixel; registering the image keeps it. -/
theorem loadPalettizesImage : Obligations.LoadPalettizesImage := by
  rintro s base w h cell name hb h4 hw hh hsize hroom hquiet hcfg ⟨-, -, hlen, -⟩
  obtain ⟨hlow, hhigh⟩ := palCap_bounds hcfg
  have hready : LoadReady s := ⟨hquiet, by omega, hhigh, hlen⟩
  have hv := visited_palettize hready (intOf base).toNat (intOf w).toNat (intOf h).toNat
  have hcount := length_palettize hready (intOf base).toNat (intOf w).toNat (intOf h).toNat
  refine ⟨_, exec_loadtm_of_ok (loadOk_iff.mpr ⟨hb, h4, hw, hh, hsize, hroom⟩), fun x hx y hy => ?_, ?_, ?_, ?_⟩
  · have hp := hv.stored (x, y) (mem_columnMajor.mpr ⟨hx, hy⟩)
    rw [PixelStored, hv.frame.cfg] at hp
    simp only [loadImage_texByte, loadImage_pal, loadImage_palOvf]
    exact hp
  · rw [loadImage_pal, hv.pal, listColors_columnMajor]
  · rw [loadImage_palOvf, hv.palOvf, listColors_columnMajor, loadImage_pal]
  · rw [loadImage_aux, hcount]
    simp only [loadImage_texByte]
    rfl

/-- Settles O45: a load without overflow has every colour of the image in the palette, and the load of `s` leaves the same palette. -/
theorem paletteRoundTrip : Obligations.PaletteRoundTrip := by
  intro s base w h cell name t hb h4 hw hh hsize hroom hquiet hcfg hpal hexec hclear
  obtain ⟨t', hexec', -, hpal', hovf', -⟩ :=
    loadPalettizesImage { s with palOvf := false } base w h cell name hb h4 hw hh hsize hroom hquiet hcfg hpal
  obtain rfl := Host.Outcome.next.inj (hexec.symm.trans hexec')
  obtain ⟨v, hexecv, hpixels, hpalv, -⟩ := loadPalettizesImage s base w h cell name hb h4 hw hh hsize hroom hquiet hcfg hpal
  have hall : ∀ c ∈ Spec.imageColors s (intOf base).toNat (intOf w).toNat (intOf h).toNat, c ∈ t.pal := by
    by_contra! hmissing
    rw [hovf'.mpr (.inr hmissing)] at hclear
    cases hclear
  have hsame : v.pal = t.pal := hpalv.trans hpal'.symm
  refine ⟨v, v.setLut v.pal, hexecv, rfl, fun x hx y hy => ?_⟩
  obtain ⟨-, -, -, hfound | ⟨-, -, -, hmissing⟩⟩ := hpixels x hx y hy
  · exact hfound
  · rw [hsame] at hmissing
    exact absurd (hall _ (mem_imageColors hx hy)) hmissing

end
end

section
/-! SUPPORT. Loads by their cases (R133, R140): accepted or rejected, room in the registry or none. -/

namespace Sys2Proof.Machine

section Loads
variable {s : State}

/-- The model's tile resolution is the one of the rules (R34, R133). -/
theorem tileSizeOr_eq_legalTile (v : Int) : tileSizeOr v = Spec.legalTile v := by
  simp [tileSizeOr, Spec.legalTile, tileSizes, defaultTile]

/-- A load that fails a check of R133 changes `RESULT` alone. -/
theorem exec_loadtm_of_not_ok {base w h cell : Word} {name : Bytes} (hok : ¬ loadOk (intOf base) (intOf w) (intOf h) s = true) :
    exec (.loadtm base w h cell name) s = .next { s with result := 0xFFFFFFFF } := congrArg Host.Outcome.next (if_neg hok)

/-- What a load does after its checks, by what `Palettize` changes: the tilemap stands at the end of the registry of `s`, and its index
is the number of images in `s`. -/
theorem loadImage_state (base w h cell : Word) (name : Bytes) (s : State) :
    ∃ l o m k, Palettized (loadBytes base w h) s { s with pal := s.pal ++ l, palOvf := o, texmem := m, draws := k } ∧
      loadImage (intOf base) (intOf w) (intOf h) (intOf cell) name s = { s with
        pal := s.pal ++ l, palOvf := o, texmem := m, draws := k
        aux := BitVec.ofNat 32 (palettize (intOf base).toNat (intOf w).toNat (intOf h).toNat s).1.length
        tm := s.tm ++ [loadEntry base w h cell name], result := BitVec.ofNat 32 s.tm.length } := by
  have hpal : Palettized (loadBytes base w h) s _ := palettize_spec (intOf base).toNat (intOf w).toNat (intOf h).toNat s
  obtain ⟨l, o, m, k, e, -⟩ := id hpal
  rw [e] at hpal
  refine ⟨l, o, m, k, hpal, ?_⟩
  unfold loadImage
  dsimp only
  rw [e, setResult_natCast, ← BitVec.ofInt_natCast]
  rfl

/-- A font that finds room is registered at the end of the registry (R140). -/
theorem exec_loadfnt_of_room (fid : Word) (name : Bytes) (hroom : s.font.length < s.cfg.fontMax) :
    exec (.loadfnt fid name) s = .next { s with
      font := s.font ++ [{ name := name, fid := intOf fid }], result := BitVec.ofNat 32 s.font.length } :=
  congrArg Host.Outcome.next ((if_neg (not_le.mpr hroom)).trans (setResult_natCast _ s.font.length))

/-- A full registry leaves `RESULT = -1` and nothing else (R140). -/
theorem exec_loadfnt_of_full (fid : Word) (name : Bytes) (hfull : s.cfg.fontMax ≤ s.font.length) :
    exec (.loadfnt fid name) s = .next { s with result := 0xFFFFFFFF } := congrArg Host.Outcome.next (if_pos hfull)

end Loads

end Sys2Proof.Machine

section
open Sys2Proof Sys2Proof.Machine

/-- Settles O43: the frame of `Palettize`, which stores only bytes of the image, with the entry that is registered after it. -/
theorem acceptedLoadFrame : Obligations.AcceptedLoadFrame := by
  intro s base w h cell name hb h4 hw hh hsize hroom
  have hok : loadOk (intOf base) (intOf w) (intOf h) s = true := loadOk_iff.mpr ⟨hb, h4, hw, hh, hsize, hroom⟩
  obtain ⟨l, o, m, k, hpal, hload⟩ := loadImage_state base w h cell name s
  rw [exec_loadtm_of_ok hok, hload, loadEntry, tileSizeOr_eq_legalTile]
  exact ⟨l, o, m, _, k, rfl, fun a hout => hpal.texByte (mt (loadBytes_iff hok).mp hout)⟩

/-- Settles O42: each case denies one of R133's checks. -/
theorem rejectedLoad : Obligations.RejectedLoad := by
  intro s base w h cell name hfails
  refine exec_loadtm_of_not_ok fun hok => ?_
  obtain ⟨hb, h4, hw, hh, hsize, hroom⟩ := loadOk_iff.mp hok
  omega

/-- Settles O46: the two cases of the registry's room. -/
theorem loadfntRegisters : Obligations.LoadfntRegisters := fun _ fid name =>
  ⟨exec_loadfnt_of_room fid name, exec_loadfnt_of_full fid name⟩

end
end

section
/-! SUPPORT. Tilemaps (R145 to R151): looking one up by name or by index, and the outcomes of `GetTile`. -/

namespace Sys2Proof.Machine

section Tiles
variable {s : State} {e : TmEntry} {k i j : Int} {w h : Fix} {cs : Nat}

/-! ## Looking up by name -/

/-- A search by name stops at the lowest entry of that name (R137). -/
theorem findIdx?_name_eq_some {α : Type} {f : α → Bytes} {name : Bytes} {l : List α} {n : Nat} {d : α} (hn : l[n]? = some d)
    (hd : f d = name) (hlow : ∀ (m : Nat) c, m < n → l[m]? = some c → f c ≠ name) : l.findIdx? (fun c => f c == name) = some n := by
  obtain ⟨hlt, rfl⟩ := List.getElem?_eq_some_iff.mp hn
  refine List.findIdx?_eq_some_iff_getElem.mpr ⟨hlt, beq_iff_eq.mpr hd, fun m hm he => ?_⟩
  exact hlow m _ hm (List.getElem?_eq_getElem (hm.trans hlt)) (beq_iff_eq.mp he)

/-- A search by name finds nothing where no entry has the name (R137). -/
theorem findIdx?_name_eq_none {α : Type} {f : α → Bytes} {name : Bytes} {l : List α} (hno : ∀ c ∈ l, f c ≠ name) :
    l.findIdx? (fun c => f c == name) = none :=
  List.findIdx?_eq_none_iff.mpr fun c hc => beq_eq_false_iff_ne.mpr (hno c hc)

theorem exec_tmap_of_some {name : Bytes} {n : Nat} (hn : s.tm.findIdx? (fun e => e.name == name) = some n) :
    exec (.tmap name) s = .next { s with result := BitVec.ofNat 32 n } := by
  simp only [exec, execTmap, hn, setResult_natCast]

theorem exec_tmap_of_none {name : Bytes} (hn : s.tm.findIdx? (fun e => e.name == name) = none) :
    exec (.tmap name) s = .next { s with logNf := true, result := 0xFFFFFFFF } := by
  simp only [exec, execTmap, hn]
  rfl

/-! ## Looking up by index -/

/-- R150: no tilemap stands outside the registry. -/
theorem tmAt_eq_none_iff : tmAt k s = none ↔ ¬ (0 ≤ k ∧ k < s.tm.length) := by
  unfold tmAt
  split
  · rw [List.getElem?_eq_none_iff]; omega
  · exact iff_of_true rfl fun hk => absurd hk.1 ‹_›

theorem tmAt_of_nonneg (hk : 0 ≤ k) : tmAt k s = s.tm[k.toNat]? := if_pos hk

/-! ## The rectangle of a tile -/

/-- R145: the columns of a tilemap, as the rule's rounded quotient. -/
theorem columns_eq (hc : 1 ≤ e.cell) : (e.columns : Int) = ⌈(e.w : ℚ) / e.cell⌉ := natCeilDiv_eq hc

/-- R145: the rows of a tilemap, as the rule's rounded quotient. -/
theorem rows_eq (hc : 1 ≤ e.cell) : (e.rows : Int) = ⌈(e.h : ℚ) / e.cell⌉ := natCeilDiv_eq hc

/-- R154: a span in tiles, rounded up to whole pixels. -/
theorem fixCeil_mul_natCast (q : Fix) (n : Nat) : fixCeil (q * n) = ⌈Spec.rat q * n⌉ := by
  rw [fixCeil_eq, Spec.rat]
  push_cast
  rw [mul_div_right_comm]

/-! ## The outcomes of `GetTile` -/

theorem getTile_of_not_registered (hk : ¬ (0 ≤ k ∧ k < s.tm.length)) : getTile k i j w h cs s = (none, logNotFound s) := by
  simp only [getTile, tmAt_eq_none_iff.mpr hk]

theorem getTile_of_outside (he : tmAt k s = some e) (ho : ¬ (0 ≤ i ∧ i < e.columns ∧ 0 ≤ j ∧ j < e.rows)) :
    getTile k i j w h cs s = (none, logNotFound s) := by
  simp only [getTile, he, if_neg ho]

theorem getTile_of_inside (he : tmAt k s = some e) (hin : 0 ≤ i ∧ i < e.columns ∧ 0 ≤ j ∧ j < e.rows) :
    getTile k i j w h cs s = (tileView k.toNat e i j w h cs, s) := by
  simp only [getTile, he, if_pos hin]

/-! ## `STILE` -/

theorem exec_stileSpan_on (id i j w h : Word) (hd : s.drawEn = true) :
    exec (.stileSpan id i j w h) s = .next (setTile (intOf id) (intOf i) (intOf j) (fixOf w) (fixOf h) s) :=
  congrArg Host.Outcome.next (gated_on hd)

/-- R96: the short form is the long one with spans of 1.0. -/
theorem exec_stile_eq (id i j : Word) (s : State) : exec (.stile id i j) s = exec (.stileSpan id i j 0x00010000 0x00010000) s := rfl

theorem setTile_of_notFound (ht : getTile k i j w h s.tmode s = (none, logNotFound s)) :
    setTile k i j w h s = { s with logNf := true, ns := { s.ns with tex := none } } := by
  simp only [setTile, ht]
  rfl

theorem setTile_of_found {v : TexRef} (ht : getTile k i j w h s.tmode s = (v, s)) :
    setTile k i j w h s = { s with ns := { s.ns with tex := v } } := by
  simp only [setTile, ht]
  rfl

end Tiles

end Sys2Proof.Machine

section
open Sys2Proof Sys2Proof.Machine

/-- Settles O21: one lemma of `GetTile` an outcome, with the model's grid size and spans as the rules' quotients. -/
theorem stileSelectsTile : Obligations.StileSelectsTile := by
  intro s id i j w h hd
  simp only [exec_stile_eq, exec_stileSpan_on _ _ _ _ _ hd]
  refine ⟨fun hk => ?_, fun e hid hget hc => ?_, _, rfl, rfl⟩
  · rw [setTile_of_notFound (getTile_of_not_registered hk)]
  · have he : tmAt (intOf id) s = some e := (tmAt_of_nonneg hid).trans hget
    rw [← columns_eq hc, ← rows_eq hc]
    refine ⟨fun hout => ?_, fun hin => ?_⟩
    · rw [setTile_of_notFound (getTile_of_outside he hout)]
    · rw [setTile_of_found (getTile_of_inside he hin), tileView, fixCeil_mul_natCast, fixCeil_mul_natCast]

/-- Settles O34: the search by name, found or not. -/
theorem tmapFindsTilemap : Obligations.TmapFindsTilemap := fun _ _ =>
  ⟨fun _ _ hk he hlow => exec_tmap_of_some (findIdx?_name_eq_some hk he hlow),
    fun hno => exec_tmap_of_none (findIdx?_name_eq_none hno)⟩

end
end

section
/-! SUPPORT. The grid's setters, and `MFILL` cell by cell: what one iteration leaves in each cell of the window (R164, R165, R173), and then
what the loop leaves. -/

namespace Sys2Proof.Machine

section GridFill
variable {s : State} {x y id i j : Int} {gx gy : Nat}

/-! ## The window -/

/-- The whole-cell part of the scroll along one axis (R163). -/
theorem floor_div_eight (n : Int) : ⌊(n : ℚ) / 8⌋ = n / 8 := Rat.floor_intCast_div_natCast n 8

theorem gw_eq (c : Config) : (c.gw : ℤ) = ⌈(c.swidth : ℚ) / 8⌉ + 1 := by
  rw [Config.gw, Nat.cast_succ, natCeilDiv_eq (by decide)]
  rfl

theorem gh_eq (c : Config) : (c.gh : ℤ) = ⌈(c.sheight : ℚ) / 8⌉ + 1 := by
  rw [Config.gh, Nat.cast_succ, natCeilDiv_eq (by decide)]
  rfl

/-- The place of a cell determines it (R39): cells lie row-major, as the pixels of a screen `GW` wide do. -/
theorem cellIndex_inj {c : Config} {hx hy : Nat} (hg : gx < c.gw) (hh : hx < c.gw) :
    cellIndex c gx gy = cellIndex c hx hy ↔ gx = hx ∧ gy = hy :=
  fbIndex_inj (c := { c with swidth := c.gw }) hg hh

theorem cellIndex_lt {c : Config} (hx : gx < c.gw) (hy : gy < c.gh) : cellIndex c gx gy < c.gw * c.gh :=
  fbIndex_lt (c := { c with swidth := c.gw, sheight := c.gh }) hx hy

/-- What `GridPut` leaves in a cell of the window, under either reading of an index outside it (R164). -/
theorem gridAt_gridPut (hlen : s.grid.cells.length = s.cfg.gw * s.cfg.gh) (hx : gx < s.cfg.gw) (hy : gy < s.cfg.gh) (px py : Int)
    (v : TexRef) :
    gridAt gx gy (gridPut px py v s) =
      if gridIndex s.cfg.gridOob px s.cfg.gw = gx ∧ gridIndex s.cfg.gridOob py s.cfg.gh = gy then v else gridAt gx gy s := by
  unfold gridPut
  generalize gridIndex s.cfg.gridOob px s.cfg.gw = qx
  generalize gridIndex s.cfg.gridOob py s.cfg.gh = qy
  dsimp only
  split
  case isTrue hin =>
    obtain ⟨h0, hw, h1, -⟩ := hin
    lift qx to Nat using h0
    lift qy to Nat using h1
    have hlt : cellIndex s.cfg gx gy < s.grid.cells.length := hlen ▸ cellIndex_lt hx hy
    simp only [gridAt, State.setGrid_grid, State.setGrid_cfg, Int.toNat_natCast, Nat.cast_inj, List.getD_eq_getElem?_getD,
      List.getElem?_set, cellIndex_inj (by omega : qx < s.cfg.gw) hx]
    by_cases e : qx = gx ∧ qy = gy
    · obtain ⟨rfl, rfl⟩ := e
      simp [hlt]
    · simp [e]
  case isFalse hout =>
    exact (if_neg (by rintro ⟨rfl, rfl⟩; omega)).symm

/-! ## `MFILL` -/

/-- `id` names a registered tilemap (R150). -/
theorem isSome_tmAt_iff : (tmAt id s).isSome = true ↔ 0 ≤ id ∧ id < s.tm.length := by
  rw [← not_iff_not, ← tmAt_eq_none_iff, Bool.not_eq_true, Option.isSome_eq_false_iff, Option.isNone_iff_eq_none]

/-- The model's loop order is R165's. -/
theorem fillSteps_eq_fillOrder (w h m : Nat) : fillSteps w h m = Spec.fillOrder w h m := by
  simp [fillSteps, rowMajor, Spec.fillOrder, List.flatMap_assoc, List.map_flatMap, List.flatMap_map, Function.comp_def]

theorem mem_fillOrder {w h m : Nat} {f : FillStep} : f ∈ Spec.fillOrder w h m ↔ f.u < w ∧ f.v < h ∧ f.du < m ∧ f.dv < m := by
  obtain ⟨u, v, du, dv⟩ := f
  simp [Spec.fillOrder, and_comm, and_left_comm]

/-- An iteration changes at most what the cells hold. -/
theorem fillCell_state (x y id i j : Int) (valid : Bool) (f : FillStep) (s : State) :
    ∃ cells, fillCell x y id i j valid f s = { s with grid := { s.grid with cells := cells } } ∧
      cells.length = s.grid.cells.length := by
  obtain ⟨cells, e, hlen, -⟩ := gridPut_state _ _ _ s
  exact ⟨cells, e, hlen⟩

/-- What one iteration leaves in a cell of the window (R165, R173). -/
theorem gridAt_fillCell (hlen : s.grid.cells.length = s.cfg.gw * s.cfg.gh) (hx : gx < s.cfg.gw) (hy : gy < s.cfg.gh) (f : FillStep) :
    gridAt gx gy (fillCell x y id i j (tmAt id s).isSome f s) =
      if Spec.fillHits s x y f gx gy then Spec.fillView s id i j f else gridAt gx gy s := by
  have hhits : Spec.fillHits s x y f gx gy = true ↔
      gridIndex s.cfg.gridOob ((x + f.u) * s.grid.mode + f.du - s.grid.sx / gridCell) s.cfg.gw = gx ∧
        gridIndex s.cfg.gridOob ((y + f.v) * s.grid.mode + f.dv - s.grid.sy / gridCell) s.cfg.gh = gy := by
    unfold Spec.fillHits gridIndex
    cases s.cfg.gridOob <;> simp [floor_div_eight]
  rw [fillCell, gridAt_gridPut hlen hx hy]
  simp only [hhits, isSome_tmAt_iff]
  rfl

/-- What the iterations `l` leave in a cell of the window: the view of the last one that hits it (R165). -/
def filledCell (s : State) (x y id i j : Int) (l : List FillStep) (gx gy : Nat) : TexRef :=
  l.foldl (fun old f => if Spec.fillHits s x y f gx gy then Spec.fillView s id i j f else old) (gridAt gx gy s)

/-- The loop of `MFILL`: each cell of the window is what the iterations leave in it, one after another. -/
theorem foldl_fillCell (x y id i j : Int) (s : State) (l : List FillStep) :
    ∃ cells, l.foldl (fun t f => fillCell x y id i j (tmAt id s).isSome f t) s = { s with grid := { s.grid with cells := cells } } ∧
      cells.length = s.grid.cells.length ∧
      (s.grid.cells.length = s.cfg.gw * s.cfg.gh → ∀ gx < s.cfg.gw, ∀ gy < s.cfg.gh,
        cells.getD (cellIndex s.cfg gx gy) none = filledCell s x y id i j l gx gy) := by
  induction l generalizing s with
  | nil => exact ⟨s.grid.cells, rfl, rfl, fun _ _ _ _ _ => rfl⟩
  | cons f l ih =>
    obtain ⟨cells, e, hlen⟩ := fillCell_state x y id i j (tmAt id s).isSome f s
    obtain ⟨cells', e', hlen', hcells⟩ := ih { s with grid := { s.grid with cells := cells } }
    refine ⟨cells', ?_, hlen'.trans hlen, fun hgrid gx hx gy hy => ?_⟩
    · rw [List.foldl_cons, e]
      exact e'
    · have hcell := gridAt_fillCell (x := x) (y := y) (id := id) (i := i) (j := j) hgrid hx hy f
      rw [e] at hcell
      rw [hcells (hlen.trans hgrid) gx hx gy hy, filledCell, filledCell, List.foldl_cons, ← hcell]
      rfl

/-- `MFILL` (R165, R166, R173). -/
theorem fill_cells (x y id i j w h : Int) (s : State) :
    ∃ cells, fill x y id i j w h s = { s with
        logNf := s.logNf || !decide (0 ≤ id ∧ id < s.tm.length), grid := { s.grid with cells := cells } } ∧
      cells.length = s.grid.cells.length ∧
      (s.grid.cells.length = s.cfg.gw * s.cfg.gh → ∀ gx < s.cfg.gw, ∀ gy < s.cfg.gh,
        cells.getD (cellIndex s.cfg gx gy) none = filledCell s x y id i j (Spec.fillOrder w.toNat h.toNat s.grid.mode) gx gy) := by
  have hlog : (if (tmAt id s).isSome then s else logNotFound s) =
      { s with logNf := s.logNf || !decide (0 ≤ id ∧ id < s.tm.length) } := by
    by_cases hv : (tmAt id s).isSome = true
    · simp [hv, isSome_tmAt_iff.mp hv]
    · simp [hv, mt isSome_tmAt_iff.mpr hv, logNotFound]
  rw [← fillSteps_eq_fillOrder, fill, hlog]
  exact foldl_fillCell x y id i j { s with logNf := s.logNf || !decide (0 ≤ id ∧ id < s.tm.length) } _

theorem exec_mfillSpan_on (x y id i j w h : Word) (hd : s.drawEn = true) :
    exec (.mfillSpan x y id i j w h) s = .next (fill (intOf x) (intOf y) (intOf id) (intOf i) (intOf j) (intOf w) (intOf h) s) :=
  congrArg Host.Outcome.next (gated_on hd)

/-- R96: the short form is the long one with a span of one tile. -/
theorem exec_mfill_eq (x y id i j : Word) (s : State) : exec (.mfill x y id i j) s = exec (.mfillSpan x y id i j 1 1) s := rfl

/-! ## `MFILL` under `GRID_OOB = drop` -/

/-- Along one axis, the cells of `w` tiles of `m` cells each are the first `w · m` places. -/
theorem exists_tile_cell_iff {m : Nat} (hm : 0 < m) {w l : Int} :
    (∃ u < w.toNat, ∃ d < m, l = u * m + d) ↔ 0 ≤ l ∧ l < w * m := by
  constructor
  · rintro ⟨u, hu, d, hd, rfl⟩
    have : ((u + 1 : Nat) : Int) * m ≤ w * m := Int.mul_le_mul_of_nonneg_right (by omega) (Int.natCast_nonneg m)
    push_cast [Int.add_mul] at this
    exact ⟨by positivity, by omega⟩
  · rintro ⟨h0, hl⟩
    lift l to Nat using h0
    have hu : ((l / m : Nat) : Int) < w := by
      rw [Int.natCast_div]
      exact Int.ediv_lt_of_lt_mul (by exact_mod_cast hm) hl
    exact ⟨l / m, by omega, l % m, Nat.mod_lt _ hm, by exact_mod_cast (Nat.div_add_mod' l m).symm⟩

/-- A loop of which every iteration that hits leaves the same value. -/
theorem foldl_hits_const {α β : Type} {hits : α → Bool} {view : α → β} {v : β} (h : ∀ a, hits a = true → view a = v) (l : List α)
    (old : β) : l.foldl (fun old a => if hits a then view a else old) old = if ∃ a ∈ l, hits a = true then v else old := by
  induction l generalizing old with
  | nil => simp
  | cons a l ih =>
    rw [List.foldl_cons, ih]
    cases e : hits a with
    | false => simp [e]
    | true => simp [e, h a e]

/-- The place along one axis, in cells, of window cell `g` in the rectangle filled from tile `origin` on (R163, R165). -/
def fillPlace (s : State) (scroll origin : Int) (g : Nat) : Int := g + ⌊(scroll : ℚ) / 8⌋ - origin * s.grid.mode

theorem fillHits_drop_iff (hdrop : s.cfg.gridOob = .drop) {f : FillStep} :
    Spec.fillHits s x y f gx gy = true ↔
      fillPlace s s.grid.sx x gx = f.u * s.grid.mode + f.du ∧ fillPlace s s.grid.sy y gy = f.v * s.grid.mode + f.dv := by
  simp only [Spec.fillHits, hdrop, decide_eq_true_iff, Int.add_mul, fillPlace]
  omega

/-- An iteration that hits the cell writes the source cell at the same place in the tilemap. -/
theorem fillView_of_hits (hdrop : s.cfg.gridOob = .drop) {f : FillStep} (hf : Spec.fillHits s x y f gx gy = true) :
    Spec.fillView s id i j f =
      if 0 ≤ id ∧ id < s.tm.length then
        some { img := id.toNat, vx := (i * s.grid.mode + fillPlace s s.grid.sx x gx) * 8,
               vy := (j * s.grid.mode + fillPlace s s.grid.sy y gy) * 8, vw := 8, vh := 8 }
      else none := by
  obtain ⟨ex, ey⟩ := (fillHits_drop_iff hdrop).mp hf
  simp only [Spec.fillView, ex, ey, Int.add_mul, Int.add_assoc]

/-- Some iteration hits the cell exactly when its place is inside the rectangle. -/
theorem exists_fillHits_iff (hdrop : s.cfg.gridOob = .drop) (hm : 0 < s.grid.mode) {w h : Int} :
    (∃ f ∈ Spec.fillOrder w.toNat h.toNat s.grid.mode, Spec.fillHits s x y f gx gy = true) ↔
      0 ≤ fillPlace s s.grid.sx x gx ∧ fillPlace s s.grid.sx x gx < w * s.grid.mode ∧
        0 ≤ fillPlace s s.grid.sy y gy ∧ fillPlace s s.grid.sy y gy < h * s.grid.mode := by
  simp only [fillHits_drop_iff hdrop, mem_fillOrder]
  rw [← and_assoc, ← exists_tile_cell_iff hm, ← exists_tile_cell_iff hm]
  constructor
  · rintro ⟨f, ⟨hu, hv, hdu, hdv⟩, ex, ey⟩
    exact ⟨⟨f.u, hu, f.du, hdu, ex⟩, f.v, hv, f.dv, hdv, ey⟩
  · rintro ⟨⟨u, hu, du, hdu, ex⟩, v, hv, dv, hdv, ey⟩
    exact ⟨⟨u, v, du, dv⟩, ⟨hu, hv, hdu, hdv⟩, ex, ey⟩

/-- The closed form of R165 under `GRID_OOB = drop`. -/
theorem filledCell_drop (hdrop : s.cfg.gridOob = .drop) (hm : 0 < s.grid.mode) (w h : Int) :
    filledCell s x y id i j (Spec.fillOrder w.toNat h.toNat s.grid.mode) gx gy =
      if 0 ≤ fillPlace s s.grid.sx x gx ∧ fillPlace s s.grid.sx x gx < w * s.grid.mode ∧
          0 ≤ fillPlace s s.grid.sy y gy ∧ fillPlace s s.grid.sy y gy < h * s.grid.mode then
        if 0 ≤ id ∧ id < s.tm.length then
          some { img := id.toNat, vx := (i * s.grid.mode + fillPlace s s.grid.sx x gx) * 8,
                 vy := (j * s.grid.mode + fillPlace s s.grid.sy y gy) * 8, vw := 8, vh := 8 }
        else none
      else gridAt gx gy s := by
  rw [filledCell, foldl_hits_const fun _ => fillView_of_hits hdrop, if_congr (exists_fillHits_iff hdrop hm) rfl rfl]

end GridFill

end Sys2Proof.Machine

section
open Sys2Proof Sys2Proof.Machine Sys2Proof.Spec

/-- Settles O35: each setter writes its part of the grid; `GW` and `GH` are the rules' quotients. -/
theorem gridSetters : Obligations.GridSetters := fun s _ _ _ hd =>
  ⟨gw_eq s.cfg, gh_eq s.cfg, congrArg _ (gated_on hd), congrArg _ (gated_on hd), _, congrArg _ (gated_on hd), List.length_replicate,
    fun _ => List.eq_of_mem_replicate⟩

/-- Settles O36: the loop's iterations one after another in each cell; the short form is the long one with spans of 1. -/
theorem mfillWritesCells : Obligations.MfillWritesCells := by
  intro s x y id i j w h hd hgrid
  obtain ⟨cells, hfill, hlen, hcells⟩ := fill_cells (intOf x) (intOf y) (intOf id) (intOf i) (intOf j) (intOf w) (intOf h) s
  exact ⟨⟨cells, (exec_mfillSpan_on x y id i j w h hd).trans (congrArg _ hfill), hlen, hcells hgrid⟩,
    _, (exec_mfill_eq x y id i j s).trans (exec_mfillSpan_on x y id i j 1 1 hd), exec_mfillSpan_on x y id i j 1 1 hd⟩

/-- Settles O37: every iteration that hits a cell writes the same view there, and one hits it exactly inside the rectangle. -/
theorem mfillDropClosedForm : Obligations.MfillDropClosedForm := by
  rintro s x y id i j w h hd ⟨hgrid, hmode, -⟩ hdrop
  obtain ⟨cells, hfill, -, hcells⟩ := fill_cells (intOf x) (intOf y) (intOf id) (intOf i) (intOf j) (intOf w) (intOf h) s
  have hm : 0 < s.grid.mode := Nat.pos_of_ne_zero fun e => by simp [e] at hmode
  exact ⟨cells, (exec_mfillSpan_on x y id i j w h hd).trans (congrArg _ hfill), fun gx hx gy hy =>
    (hcells hgrid gx hx gy hy).trans (filledCell_drop hdrop hm (intOf w) (intOf h))⟩

end
end

section
/-! SUPPORT. `MDRAW` pixel by pixel (R170): a draw leaves the pixels it does not cover, and of the grid's cells exactly one covers a pixel. -/

namespace Sys2Proof.Machine

section GridDraw
variable {s t u : State} {v : View} {px py qx qy : Nat}

/-! ## Draws that leave a pixel -/

/-- `t` is `s` after draws that left pixel `(qx, qy)` as it was. -/
structure KeepsPixel (qx qy : Nat) (s t : State) : Prop where
  picture : PictureOnly s t
  pixel : pixelAt t qx qy = pixelAt s qx qy

theorem KeepsPixel.refl (s : State) : KeepsPixel qx qy s s := ⟨.refl s, rfl⟩

theorem KeepsPixel.trans (h : KeepsPixel qx qy s t) (g : KeepsPixel qx qy t u) : KeepsPixel qx qy s u :=
  ⟨h.picture.trans g.picture, g.pixel.trans h.pixel⟩

theorem KeepsPixel.setDraws (s : State) (k : Nat) : KeepsPixel qx qy s (s.setDraws k) := ⟨.setDraws s k, rfl⟩

/-- A loop of which no iteration touches the pixel. -/
theorem KeepsPixel.foldl {α : Type} {f : State → α → State} {l : List α}
    (h : ∀ a ∈ l, ∀ t, PictureOnly s t → KeepsPixel qx qy t (f t a)) : KeepsPixel qx qy s (l.foldl f s) :=
  List.foldlRecOn (motive := KeepsPixel qx qy s) l f (.refl s) fun t ht a ha => ht.trans (h a ha t ht.picture)

/-- A loop of which one iteration alone can touch the pixel, and leaves `b` in it. -/
theorem pixelAt_foldl_of_one {α : Type} {f : State → α → State} {l : List α} {a : α} {b : Byte} (hl : l.Nodup) (ha : a ∈ l)
    (hpic : ∀ t d, PictureOnly t (f t d)) (hkeep : ∀ d ∈ l, d ≠ a → ∀ t, PictureOnly s t → KeepsPixel qx qy t (f t d))
    (hone : ∀ t, KeepsPixel qx qy s t → pixelAt (f t a) qx qy = b) : pixelAt (l.foldl f s) qx qy = b := by
  obtain ⟨l₁, l₂, rfl⟩ := List.append_of_mem ha
  obtain ⟨-, hl₂, hdis⟩ := List.nodup_append.mp hl
  have hbefore : KeepsPixel qx qy s (l₁.foldl f s) := .foldl fun d hd =>
    hkeep d (List.mem_append_left _ hd) (hdis d hd a List.mem_cons_self)
  have hafter : KeepsPixel qx qy (f (l₁.foldl f s) a) (l₂.foldl f (f (l₁.foldl f s) a)) := .foldl fun d hd t ht =>
    hkeep d (by simp [hd]) (fun e => (List.nodup_cons.mp hl₂).1 (e ▸ hd)) t ((hbefore.picture.trans (hpic _ a)).trans ht)
  rw [List.foldl_append, List.foldl_cons, hafter.pixel]
  exact hone _ hbefore

/-! ## Plotting a texel -/

theorem plotIndex_keepsPixel (hpx : px < s.cfg.swidth) (hqx : qx < s.cfg.swidth) (hne : ¬ (px = qx ∧ py = qy)) (b : Byte) :
    KeepsPixel qx qy s (plotIndex px py b s) := by
  refine ⟨plotIndex_picture px py b s, ?_⟩
  unfold plotIndex
  split
  · rfl
  · simp [pixelAt, List.getElem?_set_ne (mt (fbIndex_inj hpx hqx).mp hne)]

/-- `Plot` at another pixel, whatever it plots (R72). -/
theorem plot_keepsPixel (hqx : qx < s.cfg.swidth) {X Y : Int} (hne : ¬ (X = qx ∧ Y = qy)) (v : Option Byte) :
    KeepsPixel qx qy s (plot X Y v s) := by
  unfold plot
  split
  case isFalse => exact .refl s
  case isTrue hon =>
    have hX : X.toNat < s.cfg.swidth := by omega
    have hXY : ¬ (X.toNat = qx ∧ Y.toNat = qy) := by omega
    split
    · exact plotIndex_keepsPixel hX hqx hXY _
    · have hadv : KeepsPixel qx qy s s.advance := .setDraws s _
      split
      · exact hadv
      · exact hadv.trans (plotIndex_keepsPixel (s := s.advance) hX hqx hXY _)

theorem plotTexel_keepsPixel (hqx : qx < s.cfg.swidth) {X Y : Int} (hne : ¬ (X = qx ∧ Y = qy)) (v : View) (tx ty : Nat) :
    KeepsPixel qx qy s (plotTexel v X Y tx ty s) := by
  obtain ⟨k, hk⟩ := texel_state v tx ty s
  rw [plotTexel, hk]
  exact (KeepsPixel.setDraws s k).trans (plot_keepsPixel (s := s.setDraws k) hqx hne _)

/-- A texel inside its image is the one R68 names. -/
theorem texel_of_texelIndex (hr : s.raced = []) {tx ty : Nat} {b : Byte} (hb : Spec.texelIndex s v tx ty = some b) :
    texel v tx ty s = (some b, s) := by
  unfold Spec.texelIndex at hb
  split at hb
  · cases hb
  · rename_i e he
    split at hb
    · rename_i hin
      rw [texel_inside hr he hin, ← hb]
      rfl
    · cases hb

theorem plotTexel_pixel (hr : s.raced = []) (hf : s.fb.length = s.cfg.swidth * s.cfg.sheight) (hqx : qx < s.cfg.swidth)
    (hqy : qy < s.cfg.sheight) {tx ty : Nat} {b : Byte} (hb : Spec.texelIndex s v tx ty = some b) :
    pixelAt (plotTexel v qx qy tx ty s) qx qy = Spec.plotted s.cfg (pixelAt s qx qy) b := by
  rw [plotTexel, texel_of_texelIndex hr hb, plot_pixel hf _ _ _ hqx hqy, if_pos ⟨rfl, rfl⟩]
  rfl

/-! ## Blits -/

/-- A blit leaves the pixels outside its rectangle (R73). -/
theorem blit_keepsPixel (hqx : qx < s.cfg.swidth) {x0 y0 : Int}
    (hout : ¬ (x0 ≤ qx ∧ qx < x0 + v.vw ∧ y0 ≤ qy ∧ qy < y0 + v.vh)) : KeepsPixel qx qy s (blit (some v) x0 y0 s) := by
  refine .foldl fun p hp t ht => ?_
  obtain ⟨fb, k, rfl, -⟩ := ht
  obtain ⟨hw, hh⟩ := mem_rowMajor.mp hp
  refine plotTexel_keepsPixel (s := (s.setFb fb).setDraws k) hqx ?_ v p.1 p.2
  omega

/-- A blit shows in a pixel of its rectangle the texel over it, where that texel is inside its image (R73, R68, R72). -/
theorem blit_pixel (hr : s.raced = []) (hf : s.fb.length = s.cfg.swidth * s.cfg.sheight) (hqx : qx < s.cfg.swidth)
    (hqy : qy < s.cfg.sheight) {x0 y0 : Int} {tx ty : Nat} (htx : tx < v.vw) (hty : ty < v.vh) (hx : x0 + tx = qx) (hy : y0 + ty = qy)
    {b : Byte} (hb : Spec.texelIndex s v tx ty = some b) :
    pixelAt (blit (some v) x0 y0 s) qx qy = Spec.plotted s.cfg (pixelAt s qx qy) b := by
  refine pixelAt_foldl_of_one (nodup_rowMajor v.vw v.vh) (mem_rowMajor.mpr ⟨htx, hty⟩ : (tx, ty) ∈ _)
    (fun t p => plotTexel_picture _ _ _ _ _ t) ?_ ?_
  · rintro ⟨ax, ay⟩ - hne t ⟨fb, k, rfl, -⟩
    have hp : ¬ (x0 + (ax : Int) = qx ∧ y0 + (ay : Int) = qy) := fun ⟨ex, ey⟩ => hne (by rw [Prod.mk.injEq]; omega)
    exact plotTexel_keepsPixel (s := (s.setFb fb).setDraws k) hqx hp v ax ay
  · rintro t ⟨⟨fb, k, rfl, hfb⟩, hkeep⟩
    dsimp only
    rw [hx, hy, plotTexel_pixel (s := (s.setFb fb).setDraws k) hr (hfb.trans hf) hqx hqy hb, hkeep]
    rfl

/-! ## `MDRAW` -/

theorem exec_mdraw_on (hd : s.drawEn = true) : exec .mdraw s = .next (drawGrid s) := congrArg Host.Outcome.next (gated_on hd)

/-- One cell of `MDRAW` (R170). -/
def drawCell (s : State) (p : Nat × Nat) : State :=
  blit (gridAt p.1 p.2 s) ((p.1 : Int) * 8 - s.grid.sx % 8) ((p.2 : Int) * 8 - s.grid.sy % 8) s

theorem drawGrid_eq_foldl (s : State) : drawGrid s = (rowMajor s.cfg.gw s.cfg.gh).foldl drawCell s := rfl

/-- The place of the grid over a pixel (R163, R170). -/
def cellOver (s : State) (qx qy : Nat) : Nat × Nat := ((qx + (s.grid.sx % 8).toNat) / 8, (qy + (s.grid.sy % 8).toNat) / 8)

/-- It is a cell of the grid (the coverage of R172). -/
theorem cellOver_lt (hqx : qx < s.cfg.swidth) (hqy : qy < s.cfg.sheight) :
    (cellOver s qx qy).1 < s.cfg.gw ∧ (cellOver s qx qy).2 < s.cfg.gh := by
  simp only [cellOver, Config.gw, Config.gh, gridCell]
  omega

/-- The views of the grid are `G` pixels wide and high (R165). -/
theorem GridOk.size (hg : GridOk s) {p : Nat × Nat} (hv : gridAt p.1 p.2 s = some v) : v.vw = 8 ∧ v.vh = 8 := by
  obtain ⟨-, -, -, -, hcells⟩ := hg
  have hlt : cellIndex s.cfg p.1 p.2 < s.grid.cells.length := not_le.mp fun hle => by
    rw [gridAt, List.getD_eq_default _ _ hle] at hv
    cases hv
  rw [gridAt, List.getD_eq_getElem _ _ hlt] at hv
  obtain ⟨hw, hh, -⟩ := hcells v (hv ▸ List.getElem_mem hlt)
  exact ⟨hw, hh⟩

/-- A cell leaves the pixels that it is not over; an `EMPTY` one leaves every pixel. -/
theorem drawCell_keepsPixel (hg : GridOk s) (hqx : qx < s.cfg.swidth) {p : Nat × Nat}
    (hp : p = cellOver s qx qy → gridAt p.1 p.2 s = none) : KeepsPixel qx qy s (drawCell s p) := by
  rw [drawCell]
  cases hv : gridAt p.1 p.2 s with
  | none => exact .refl s
  | some v =>
    obtain ⟨hw, hh⟩ := hg.size hv
    refine blit_keepsPixel hqx fun hin => Option.some_ne_none v (hv.symm.trans (hp ?_))
    rw [cellOver, Prod.ext_iff]
    omega

/-- A pixel under an `EMPTY` cell stays as it is. -/
theorem drawGrid_pixel_of_none (hg : GridOk s) (hqx : qx < s.cfg.swidth)
    (hcell : gridAt (cellOver s qx qy).1 (cellOver s qx qy).2 s = none) : pixelAt (drawGrid s) qx qy = pixelAt s qx qy := by
  have hkeep : KeepsPixel qx qy s (drawGrid s) := by
    refine .foldl fun p _ t ht => ?_
    obtain ⟨fb, k, rfl, -⟩ := ht
    exact drawCell_keepsPixel (s := (s.setFb fb).setDraws k) hg hqx fun e => e ▸ hcell
  exact hkeep.pixel

/-- A pixel shows the texel over it of the cell over it, where that texel is inside its image. -/
theorem drawGrid_pixel_of_some (hr : s.raced = []) (hf : FramesOk s) (hg : GridOk s) (hqx : qx < s.cfg.swidth) (hqy : qy < s.cfg.sheight)
    (hcell : gridAt (cellOver s qx qy).1 (cellOver s qx qy).2 s = some v) {b : Byte}
    (hb : Spec.texelIndex s v ((qx + (s.grid.sx % 8).toNat) % 8 : Nat) ((qy + (s.grid.sy % 8).toNat) % 8 : Nat) = some b) :
    pixelAt (drawGrid s) qx qy = Spec.plotted s.cfg (pixelAt s qx qy) b := by
  obtain ⟨hw, hh⟩ := hg.size hcell
  rw [drawGrid_eq_foldl]
  refine pixelAt_foldl_of_one (nodup_rowMajor _ _) (mem_rowMajor.mpr (cellOver_lt hqx hqy)) (fun t p => blit_picture _ _ _ t) ?_ ?_
  · rintro p - hne t ⟨fb, k, rfl, -⟩
    exact drawCell_keepsPixel (s := (s.setFb fb).setDraws k) hg hqx fun e => absurd e hne
  · rintro t ⟨⟨fb, k, rfl, hfb⟩, hkeep⟩
    rw [drawCell, show gridAt _ _ ((s.setFb fb).setDraws k) = some v from hcell,
      blit_pixel (s := (s.setFb fb).setDraws k) hr (hfb.trans hf.1) hqx hqy (by omega) (by omega) ?_ ?_ hb, hkeep]
    · rfl
    · simp only [cellOver, State.setDraws_grid, State.setFb_grid]
      omega
    · simp only [cellOver, State.setDraws_grid, State.setFb_grid]
      omega

end GridDraw

end Sys2Proof.Machine

section
open Sys2Proof Sys2Proof.Machine

/-- Settles O38: the draws change the picture alone; the cell over a pixel is `EMPTY` or shows its texel. -/
theorem mdrawPaintsGrid : Obligations.MdrawPaintsGrid := by
  intro s hd
  obtain ⟨fb, k, hdraw, hfb⟩ := drawGrid_picture s
  refine ⟨fb, k, (exec_mdraw_on hd).trans (congrArg _ hdraw), hfb, fun hr hf hg px hx py hy => ?_⟩
  obtain ⟨hgx, hgy⟩ := cellOver_lt hx hy
  have hpixel : fb.getD (py * s.cfg.swidth + px) 0 = pixelAt (drawGrid s) px py := by
    rw [hdraw]
    rfl
  refine ⟨hgx, hgy, ?_⟩
  rw [hpixel]
  split
  · exact drawGrid_pixel_of_none hg hx ‹_›
  · exact fun b hb => drawGrid_pixel_of_some hr hf hg hx hy ‹_› hb

end
end

section
/-! SUPPORT. Sprites (R181 to R184, R193): `SDRAW` within the budget and past it, the pixels of the rasteriser, and its integer arithmetic
as the rules' rationals. -/

namespace Sys2Proof.Machine

section SpriteDraw
variable {s : State} {v : View} {p : Placement} {x y : Fix}

/-! ## The budget -/

theorem exec_sdraw_on (x y : Word) (hd : s.drawEn = true) : exec (.sdraw x y) s = .next (drawSprite (fixOf x) (fixOf y) s) :=
  congrArg Host.Outcome.next (gated_on hd)

theorem drawSprite_of_full (hb : s.cfg.numSprites ≤ s.sc) : drawSprite x y s = s := if_neg (not_lt.mpr hb)

theorem drawSprite_of_room (hb : s.sc < s.cfg.numSprites) :
    drawSprite x y s =
      (spriteRaster s.ns.tex (placement x y s) s).setSc ((spriteRaster s.ns.tex (placement x y s) s).sc + 1) := if_pos hb

/-- Within the budget a draw changes the picture and counts (R193). -/
theorem drawSprite_picture (hb : s.sc < s.cfg.numSprites) (x y : Fix) :
    ∃ fb k, drawSprite x y s = { s with fb := fb, draws := k, sc := s.sc + 1 } ∧ fb.length = s.fb.length := by
  obtain ⟨fb, k, hraster, hfb⟩ := spriteRaster_picture s.ns.tex (placement x y s) s
  exact ⟨fb, k, by rw [drawSprite_of_room hb, hraster]; rfl, hfb⟩

/-- A draw keeps what the next one is gated and limited by, and counts as long as there is room (R193). -/
theorem drawSprite_counts (hb : s.sc ≤ s.cfg.numSprites) (x y : Fix) :
    (drawSprite x y s).drawEn = s.drawEn ∧ (drawSprite x y s).cfg = s.cfg ∧
      (drawSprite x y s).sc = min (s.sc + 1) s.cfg.numSprites := by
  rcases hb.lt_or_eq with hroom | hfull
  · obtain ⟨fb, k, hdraw, -⟩ := drawSprite_picture hroom x y
    rw [hdraw]
    exact ⟨rfl, rfl, (min_eq_left hroom).symm⟩
  · rw [drawSprite_of_full hfull.ge]
    exact ⟨rfl, rfl, by omega⟩

/-- A run of `SDRAW`s counts up to the budget (R194). -/
theorem execAll_sdraw (ps : List (Word × Word)) (hd : s.drawEn = true) (hb : s.sc ≤ s.cfg.numSprites) :
    ∃ t, Spec.execAll (ps.map fun p => .sdraw p.1 p.2) s = .next t ∧ t.sc = min (s.sc + ps.length) s.cfg.numSprites := by
  induction ps generalizing s with
  | nil => exact ⟨s, rfl, (min_eq_left hb).symm⟩
  | cons p ps ih =>
    obtain ⟨hen, hcfg, hsc⟩ := drawSprite_counts hb (fixOf p.1) (fixOf p.2)
    obtain ⟨t, hrun, ht⟩ := ih (hen.trans hd) (by rw [hsc, hcfg]; exact min_le_right _ _)
    refine ⟨t, ?_, ?_⟩
    · rw [List.map_cons, Spec.execAll, exec_sdraw_on _ _ hd]
      exact hrun
    · rw [ht, hsc, hcfg, List.length_cons]
      omega

/-! ## Sprites that draw nothing (R197) -/

theorem spriteRaster_of_zero (t : TexRef) (hz : p.ex = 0 ∨ p.ey = 0) : spriteRaster t p s = s := by
  cases t with
  | none => rfl
  | some v => exact if_pos hz

theorem effH_eq_zero_iff {n : NextSprite} : effH n = 0 ↔ n.scaleH = 0 := by
  unfold effH
  split
  · exact neg_eq_zero
  · rfl

theorem effV_eq_zero_iff {n : NextSprite} : effV n = 0 ↔ n.scaleV = 0 := by
  unfold effV
  split
  · exact neg_eq_zero
  · rfl

theorem placement_ex_ne_zero (h : s.ns.scaleH ≠ 0) : (placement x y s).ex ≠ 0 := mt effH_eq_zero_iff.mp h

theorem placement_ey_ne_zero (h : s.ns.scaleV ≠ 0) : (placement x y s).ey ≠ 0 := mt effV_eq_zero_iff.mp h

theorem spriteRaster_of_empty (h : s.ns.tex = none ∨ s.ns.scaleH = 0 ∨ s.ns.scaleV = 0) :
    spriteRaster s.ns.tex (placement x y s) s = s := by
  rcases h with htex | hz
  · rw [htex]
    rfl
  · exact spriteRaster_of_zero _ (hz.imp effH_eq_zero_iff.mpr effV_eq_zero_iff.mpr)

/-! ## The pixels of the rasteriser -/

/-- A texel of a view that lies inside its image has an index (R68). -/
theorem exists_texelIndex (hv : View.inside s v) {tx ty : Nat} (hx : tx < v.vw) (hy : ty < v.vh) :
    ∃ b, Spec.texelIndex s v tx ty = some b := by
  obtain ⟨e, he, hvx, hvy, -, -, hw, hh⟩ := hv
  simp only [Spec.texelIndex, he]
  exact ⟨_, if_pos (by omega)⟩

theorem axisTexel_lt {o r e : Fix} {size t : Nat} (h : axisTexel o r e size = some t) : t < size := by
  unfold axisTexel at h
  dsimp only at h
  split at h
  · cases h
    omega
  · cases h

theorem rotTexel_lt {px py : Nat} {t : Nat × Nat} (h : rotTexel p v px py = some t) : t.1 < v.vw ∧ t.2 < v.vh := by
  unfold rotTexel at h
  split at h
  · cases h
  · obtain ⟨q, -, rfl⟩ := Option.map_eq_some_iff.mp h
    exact ⟨Nat.mod_lt _ (by omega), Nat.mod_lt _ (by omega)⟩

/-- Whatever the angle, the rasteriser reads texels of the view (R182, R183). -/
theorem spriteTexel_lt {px py : Nat} {t : Nat × Nat} (h : spriteTexel p v px py = some t) : t.1 < v.vw ∧ t.2 < v.vh := by
  unfold spriteTexel at h
  dsimp only at h
  split at h
  · exact rotTexel_lt h
  · split at h
    · cases h
      exact ⟨axisTexel_lt ‹_›, axisTexel_lt ‹_›⟩
    · cases h

/-- What the rasteriser plots for one pixel of the screen. -/
def spriteAct (s : State) (v : View) (p : Placement) (q : Nat × Nat) : Option (Int × Int × Byte) :=
  (spriteTexel p v q.1 q.2).bind fun t => (Spec.texelIndex s v t.1 t.2).map fun b => (q.1, q.2, b)

theorem spriteAct_setFb (fb : List Byte) (q : Nat × Nat) : spriteAct (s.setFb fb) v p q = spriteAct s v p q := rfl

theorem pixel_of_spriteAct {q : Nat × Nat} {px py : Int} {b : Byte} (h : spriteAct s v p q = some (px, py, b)) :
    px = q.1 ∧ py = q.2 := by
  obtain ⟨t, -, ht⟩ := Option.bind_eq_some_iff.mp h
  obtain ⟨c, -, hc⟩ := Option.map_eq_some_iff.mp ht
  cases hc
  exact ⟨rfl, rfl⟩

theorem spritePixel_of_inside (hr : s.raced = []) (hv : View.inside s v) (q : Nat × Nat) :
    spritePixel p v q.1 q.2 s = (spriteAct s v p q).elim s fun a => plot a.1 a.2.1 (some a.2.2) s := by
  unfold spritePixel spriteAct
  cases ht : spriteTexel p v q.1 q.2 with
  | none => rfl
  | some t =>
    obtain ⟨hx, hy⟩ := spriteTexel_lt ht
    obtain ⟨b, hb⟩ := exists_texelIndex hv hx hy
    simp only [plotTexel, texel_of_texelIndex hr hb, Option.bind_some, hb, Option.map_some, Option.elim_some]

theorem actOn_spriteAct (qx qy : Nat) (old : Byte) :
    actOn s.cfg qx qy old (spriteAct s v p (qx, qy)) =
      (spriteTexel p v qx qy).elim old fun t => Spec.painted s v t.1 t.2 old := by
  unfold spriteAct
  cases spriteTexel p v qx qy with
  | none => rfl
  | some t =>
    simp only [Option.bind_some, Option.elim_some, Spec.painted]
    cases Spec.texelIndex s v t.1 t.2 with
    | none => rfl
    | some b => simp [actOn, Spec.plotted]

/-- The rasteriser paints each pixel of the screen from the texel it reads, and leaves the pixels that read none (R182). -/
theorem spriteRaster_pixels (hr : s.raced = []) (hf : FramesOk s) (hv : View.inside s v) (hx : p.ex ≠ 0) (hy : p.ey ≠ 0) :
    ∃ fb, spriteRaster (some v) p s = s.setFb fb ∧ fb.length = s.fb.length ∧
      ∀ qx < s.cfg.swidth, ∀ qy < s.cfg.sheight, pixelAt (s.setFb fb) qx qy =
        (spriteTexel p v qx qy).elim (pixelAt s qx qy) fun t => Spec.painted s v t.1 t.2 (pixelAt s qx qy) := by
  obtain ⟨fb, hloop, hfb, hpix⟩ := foldl_acts (f := fun s q => spritePixel p v q.1 q.2 s) (spriteAct s v p)
    (rowMajor s.cfg.swidth s.cfg.sheight) (fun q _ fb => by
      rw [spritePixel_of_inside (s := s.setFb fb) hr hv, spriteAct_setFb]
      cases spriteAct s v p q <;> rfl) hf.1
  refine ⟨fb, (if_neg (not_or.mpr ⟨hx, hy⟩)).trans hloop, hfb, fun qx hqx qy hqy => ?_⟩
  have hone : ∀ q ∈ rowMajor s.cfg.swidth s.cfg.sheight, q ≠ (qx, qy) → ∀ px py b, spriteAct s v p q = some (px, py, b) →
      ¬ (px = qx ∧ py = qy) := by
    rintro q - hne px py b hact ⟨rfl, rfl⟩
    obtain ⟨hqx, hqy⟩ := pixel_of_spriteAct hact
    exact hne (Prod.ext (Nat.cast_injective hqx.symm) (Nat.cast_injective hqy.symm))
  rw [hpix qx hqx qy hqy, foldl_actOn_one _ (nodup_rowMajor _ _) (mem_rowMajor.mpr ⟨hqx, hqy⟩) hone, actOn_spriteAct]

/-- `SDRAW` of a texture inside its image, with no race: one pixel after another (R182, R193). -/
theorem exec_sdraw_pixels (x y : Word) (hd : s.drawEn = true) (hb : s.sc < s.cfg.numSprites) (hr : s.raced = []) (hf : FramesOk s)
    (htex : s.ns.tex = some v) (hv : View.inside s v) (hsh : s.ns.scaleH ≠ 0) (hsv : s.ns.scaleV ≠ 0) :
    ∃ fb, exec (.sdraw x y) s = .next { s with fb := fb, sc := s.sc + 1 } ∧ fb.length = s.fb.length ∧
      ∀ px < s.cfg.swidth, ∀ py < s.cfg.sheight, fb.getD (py * s.cfg.swidth + px) 0 =
        (spriteTexel (placement (fixOf x) (fixOf y) s) v px py).elim (pixelAt s px py) fun t =>
          Spec.painted s v t.1 t.2 (pixelAt s px py) := by
  obtain ⟨fb, hraster, hfb, hpix⟩ := spriteRaster_pixels (p := placement (fixOf x) (fixOf y) s) hr hf hv (placement_ex_ne_zero hsh)
    (placement_ey_ne_zero hsv)
  refine ⟨fb, ?_, hfb, hpix⟩
  rw [exec_sdraw_on _ _ hd, drawSprite_of_room hb, htex, hraster]
  rfl

/-! ## Fixed-point numbers as rationals (R11) -/

theorem rat_injective : Function.Injective Spec.rat := fun a b h =>
  Int.cast_injective ((div_left_inj' (by norm_num)).mp h : (a : ℚ) = b)

theorem rat_neg (q : Fix) : Spec.rat (-q) = -Spec.rat q := by
  simp only [Spec.rat, Int.cast_neg, neg_div]

theorem rat_degrees (d : Int) : Spec.rat (degrees d) = d := by
  simp only [Spec.rat, degrees, fixOne]
  push_cast
  exact mul_div_cancel_right₀ _ (by norm_num)

theorem rat_eq_degrees_iff {t : Fix} {d : Int} : Spec.rat t = d ↔ t = degrees d := by
  rw [← rat_degrees d, rat_injective.eq_iff]

/-- R182: the angle reduced to one turn. -/
theorem rat_turn (rot : Fix) : Spec.rat (turn rot) = Spec.rat rot - 360 * ⌊Spec.rat rot / 360⌋ := by
  have hfloor : ⌊Spec.rat rot / 360⌋ = rot / degrees 360 :=
    calc ⌊Spec.rat rot / 360⌋ = ⌊(rot : ℚ) / (360 * 65536 : ℕ)⌋ := by rw [Spec.rat, div_div]; norm_num
      _ = rot / degrees 360 := Rat.floor_intCast_div_natCast rot _
  rw [hfloor, turn, Int.emod_def, Spec.rat, Spec.rat, degrees, fixOne]
  push_cast
  ring

theorem placement_ox (x y : Fix) (s : State) : (placement x y s).ox = s.ns.ox := rfl

theorem placement_oy (x y : Fix) (s : State) : (placement x y s).oy = s.ns.oy := rfl

theorem rat_placement_ex (x y : Fix) (s : State) : Spec.rat (placement x y s).ex = Spec.effScaleH s.ns := rat_effH s.ns

theorem rat_placement_ey (x y : Fix) (s : State) : Spec.rat (placement x y s).ey = Spec.effScaleV s.ns := rat_effV s.ns

/-- R181: the screen position. -/
theorem rat_placement_qx (x y : Fix) (s : State) : Spec.rat (placement x y s).qx = Spec.screenX s x := by
  simp only [placement, screenPos, Spec.screenX, Spec.rat]
  push_cast
  ring

theorem rat_placement_qy (x y : Fix) (s : State) : Spec.rat (placement x y s).qy = Spec.screenY s y := by
  simp only [placement, screenPos, Spec.screenY, Spec.rat]
  push_cast
  ring

/-- The offset of a pixel's centre along one axis, as `spriteTexel` computes it (R182). -/
def centreOffset (n : Nat) (q : Fix) : Fix := n * fixOne + 32768 - q

theorem rat_centreOffset (n : Nat) (q : Fix) : Spec.rat (centreOffset n q) = (n : ℚ) + 1 / 2 - Spec.rat q := by
  simp only [Spec.rat, centreOffset, fixOne]
  push_cast
  ring

/-! ## Turning (R182) -/

/-- The offset turned back, as the rule's rationals. -/
theorem turned_rat (θ dx dy : Fix) :
    Spec.turned (Spec.rat θ) (Spec.rat dx) (Spec.rat dy) = (unrotate (turn θ) dx dy).map (Prod.map Spec.rat Spec.rat) := by
  have hangle : ∀ d : Int, Spec.rat (turn θ) = d ↔ turn θ = degrees d := fun _ => rat_eq_degrees_iff
  have h0 := hangle 0
  have h90 := hangle 90
  have h180 := hangle 180
  have h270 := hangle 270
  simp only [degrees, zero_mul] at h0
  push_cast at h0 h90 h180 h270
  simp only [Spec.turned, unrotate, ← rat_turn, h0, h90, h180, h270]
  split_ifs <;> simp only [Option.map_some, Option.map_none, Prod.map_apply, rat_neg]

/-- Whether an angle is a multiple of 90 degrees does not depend on the offset turned. -/
theorem isSome_unrotate (t dx dy dx' dy' : Fix) : (unrotate t dx dy).isSome = (unrotate t dx' dy').isSome := by
  unfold unrotate
  split_ifs <;> rfl

theorem isSome_turned_zero (θ dx dy : Fix) : (Spec.turned (Spec.rat θ) 0 0).isSome = (unrotate (turn θ) dx dy).isSome := by
  have hzero : Spec.rat 0 = 0 := by simp [Spec.rat]
  have hturned := turned_rat θ 0 0
  rw [hzero] at hturned
  rw [hturned, Option.isSome_map, isSome_unrotate]

/-! ## The texel under a pixel's centre -/

/-- The texel index along one axis is the rule's rounded coordinate, inside the view (R182). -/
theorem axisTexel_eq {o r e : Fix} (he : e ≠ 0) (size : Nat) :
    axisTexel o r e size =
      if 0 ≤ Spec.rat o + Spec.rat r / Spec.rat e ∧ Spec.rat o + Spec.rat r / Spec.rat e < size then
        some ⌊Spec.rat o + Spec.rat r / Spec.rat e⌋.toNat
      else none := by
  have hl : texelCoord o r e = ⌊Spec.rat o + Spec.rat r / Spec.rat e⌋ := by
    rw [texelCoord_eq he, Spec.rat, Spec.rat, Spec.rat, div_div_div_cancel_right₀ (by norm_num)]
  have hlt : ⌊Spec.rat o + Spec.rat r / Spec.rat e⌋ < (size : Int) ↔ Spec.rat o + Spec.rat r / Spec.rat e < size := by
    rw [Int.floor_lt, Int.cast_natCast]
  simp only [axisTexel, hl, Int.floor_nonneg, hlt]

theorem spriteTexel_of_unrotate {px py : Nat} {r : Fix × Fix}
    (h : unrotate (turn p.rot) (centreOffset px p.qx) (centreOffset py p.qy) = some r) :
    spriteTexel p v px py =
      (axisTexel p.ox r.1 p.ex v.vw).bind fun tx => (axisTexel p.oy r.2 p.ey v.vh).map fun ty => (tx, ty) := by
  simp only [centreOffset] at h
  simp only [spriteTexel, h]
  cases axisTexel p.ox r.1 p.ex v.vw <;> cases axisTexel p.oy r.2 p.ey v.vh <;> rfl

/-- At a multiple of 90 degrees the model's texel is the rule's (R182). -/
theorem spriteSource_eq_spriteTexel (hsh : s.ns.scaleH ≠ 0) (hsv : s.ns.scaleV ≠ 0)
    (hturned : (Spec.turned (Spec.rat s.ns.rot) 0 0).isSome = true) (x y : Fix) (px py : Nat) :
    Spec.spriteSource s v x y px py = (spriteTexel (placement x y s) v px py).map (Prod.map Nat.cast Nat.cast) := by
  rw [isSome_turned_zero _ (centreOffset px (placement x y s).qx) (centreOffset py (placement x y s).qy)] at hturned
  obtain ⟨⟨rx, ry⟩, hun⟩ := Option.isSome_iff_exists.mp hturned
  have hsource := turned_rat s.ns.rot (centreOffset px (placement x y s).qx) (centreOffset py (placement x y s).qy)
  rw [hun, rat_centreOffset, rat_centreOffset, rat_placement_qx, rat_placement_qy] at hsource
  rw [spriteTexel_of_unrotate (p := placement x y s) hun, axisTexel_eq (placement_ex_ne_zero hsh), axisTexel_eq (placement_ey_ne_zero hsv)]
  simp only [Spec.spriteSource, hsource, Option.map_some, Prod.map_apply, placement_ox, placement_oy, rat_placement_ex, rat_placement_ey]
  generalize Spec.rat s.ns.ox + Spec.rat rx / Spec.effScaleH s.ns = lx
  generalize Spec.rat s.ns.oy + Spec.rat ry / Spec.effScaleV s.ns = ly
  by_cases hx : 0 ≤ lx ∧ lx < v.vw
  · by_cases hy : 0 ≤ ly ∧ ly < v.vh
    · simp [hx, hy, Int.floor_nonneg]
    · rw [if_pos hx, if_neg hy, if_neg fun h => hy h.2.2]
      rfl
  · rw [if_neg hx, if_neg fun h => hx ⟨h.1, h.2.1⟩]
    rfl

/-! ## Other angles (R183) -/

/-- What `RotSample` is asked for one pixel. -/
def rotQuery (p : Placement) (v : View) (px py : Nat) : RotQuery where
  t := turn p.rot
  ex := p.ex
  ey := p.ey
  ox := p.ox
  oy := p.oy
  qx := p.qx
  qy := p.qy
  vw := v.vw
  vh := v.vh
  px := px
  py := py

/-- At any other angle the texel is `RotSample`'s answer, reduced into the view. -/
theorem spriteTexel_of_not_turned (hw : 1 ≤ v.vw) (hh : 1 ≤ v.vh) (hturned : Spec.turned (Spec.rat p.rot) 0 0 = none) (px py : Nat) :
    spriteTexel p v px py = (Config.rotSample (rotQuery p v px py)).map fun t => (t.1 % v.vw, t.2 % v.vh) := by
  have hun : unrotate (turn p.rot) (centreOffset px p.qx) (centreOffset py p.qy) = none := by
    rw [← Option.isNone_iff_eq_none, ← Option.isSome_eq_false_iff, ← isSome_turned_zero, hturned, Option.isSome_none]
  simp only [centreOffset] at hun
  simp only [spriteTexel, hun]
  exact if_neg (by omega)

end SpriteDraw

end Sys2Proof.Machine

section
open Sys2Proof Sys2Proof.Machine Sys2Proof.Spec

/-- Settles O24: the rasteriser pixel by pixel, whose texel at these angles is the rule's. -/
theorem sdrawPaintsSprite : Obligations.SdrawPaintsSprite := by
  intro s x y v hd hb hr hf htex hv hsh hsv hturned
  obtain ⟨fb, hexec, hfb, hpix⟩ := exec_sdraw_pixels x y hd hb hr hf htex hv hsh hsv
  refine ⟨fb, hexec, hfb, fun px hx py hy => ?_⟩
  rw [hpix px hx py hy, spriteSource_eq_spriteTexel hsh hsv hturned]
  cases spriteTexel (placement (fixOf x) (fixOf y) s) v px py <;> rfl

/-- Settles O25: the rasteriser pixel by pixel, whose texel at these angles is the platform's answer. -/
theorem sdrawAtOtherAngles : Obligations.SdrawAtOtherAngles := by
  intro s x y v hd hb hr hf htex hv hsh hsv hturned
  obtain ⟨fb, hexec, hfb, hpix⟩ := exec_sdraw_pixels x y hd hb hr hf htex hv hsh hsv
  obtain ⟨-, -, -, -, hw, hh, -⟩ := hv
  refine ⟨fb, hexec, hfb, fun px hx py hy q ht hex hey hox hoy hqx hqy hvw hvh hpx hpy => ?_⟩
  have hq : q = rotQuery (placement (fixOf x) (fixOf y) s) v px py := by
    cases q
    rw [rotQuery, RotQuery.mk.injEq]
    exact ⟨rat_injective (ht.trans (rat_turn _).symm), rat_injective (hex.trans (rat_placement_ex _ _ s).symm),
      rat_injective (hey.trans (rat_placement_ey _ _ s).symm), hox, hoy, rat_injective (hqx.trans (rat_placement_qx _ _ s).symm),
      rat_injective (hqy.trans (rat_placement_qy _ _ s).symm), hvw, hvh, hpx, hpy⟩
  rw [hpix px hx py hy, hq, spriteTexel_of_not_turned hw hh hturned]
  cases Config.rotSample _ <;> rfl

/-- Settles O23: the rasteriser changes only the picture. -/
theorem sdrawFrame : Obligations.SdrawFrame := by
  intro s x y hd hb
  obtain ⟨fb, k, hdraw, hfb⟩ := drawSprite_picture hb (fixOf x) (fixOf y)
  exact ⟨fb, k, (exec_sdraw_on x y hd).trans (congrArg _ hdraw), hfb⟩

/-- Settles O26: the count after a run, by induction on the run; `POSTRENDER` writes 0. -/
theorem budgetCountsSdraws : Obligations.BudgetCountsSdraws := by
  intro s ps hd hb
  obtain ⟨t, hrun, ht⟩ := execAll_sdraw ps hd hb
  exact ⟨t, hrun, ht, _, rfl, rfl⟩

/-- Settles O19: each setter is its write behind the open gate. -/
theorem spriteSetters : Obligations.SpriteSetters := fun _ _ _ _ _ _ hd =>
  ⟨congrArg _ (gated_on hd), congrArg _ (gated_on hd), congrArg _ (gated_on hd), congrArg _ (gated_on hd), congrArg _ (gated_on hd)⟩

/-- Settles O22: the two sides of the budget; the rasteriser leaves the state when there is nothing to draw. -/
theorem sdrawDroppedOrEmpty : Obligations.SdrawDroppedOrEmpty := by
  refine fun s x y hd => ⟨fun hfull => ?_, fun hroom hempty => ?_⟩
  · rw [exec_sdraw_on x y hd, drawSprite_of_full hfull]
  · rw [exec_sdraw_on x y hd, drawSprite_of_room hroom, spriteRaster_of_empty hempty]
    rfl

end
end

section
/-! SUPPORT. The nine-slice box (R205 to R216): the machine's draw list is R207's, a loop of elementary draws pixel by pixel (R208, R211),
and the pieces an axis is cut into (R206, R209), whose pairs are the elements of the list. -/

namespace Sys2Proof.Machine

section NineSlice
variable {s : State} {v : View} {e : Slice} {x y w h : Int} {sw sh : Nat}

/-! ## The draw list -/

theorem edgeTiles_eq_tilesBetween (w : Int) (sw : Nat) : edgeTiles w sw = Spec.tilesBetween w sw := by
  rw [edgeTiles, Spec.tilesBetween, ceilDiv_eq]

theorem sliceList_eq_drawList (x y w h : Int) (sw sh : Nat) : sliceList x y w h sw sh = Spec.drawList x y w h sw sh := by
  simp only [sliceList, corners, edges, centre, rowMajor, edgeTiles_eq_tilesBetween, List.map_flatMap, List.map_map, Spec.drawList,
    List.append_assoc]
  rfl

theorem length_sliceList (x y w h : Int) (sw sh : Nat) : (sliceList x y w h sw sh).length = Spec.listLength w h sw sh := by
  simp only [sliceList, corners, edges, centre, rowMajor, edgeTiles_eq_tilesBetween, Spec.listLength, List.length_append, List.length_cons,
    List.length_nil, List.length_map, List.length_range, List.length_flatMap, List.map_const', List.sum_replicate, smul_eq_mul]
  ring

/-! ## The whole command -/

theorem exec_sbox_on (x y w h : Word) (hd : s.drawEn = true) :
    exec (.sbox x y w h) s = .next (drawBox (intOf x) (intOf y) (intOf w) (intOf h) s) := congrArg Host.Outcome.next (gated_on hd)

theorem nineSlice_of_view (hw : 3 ≤ v.vw) (hh : 3 ≤ v.vh) (b : Nat) :
    nineSlice (some v) x y w h b s =
      (min b (Spec.listLength w h (v.vw / 3) (v.vh / 3)),
        ((sliceList x y w h (v.vw / 3) (v.vh / 3)).take b).foldl (fun s e => drawSlice v (v.vw / 3) (v.vh / 3) e s) s) := by
  have hslices : ¬ (v.vw / 3 = 0 ∨ v.vh / 3 = 0) := by omega
  simp only [nineSlice, if_neg hslices, List.length_take, length_sliceList]

/-- A source with no slices is the degenerate box, whichever way it has none (R215). -/
theorem nineSlice_of_degenerate {t : TexRef} (ht : ∀ v, t = some v → v.vw < 3 ∨ v.vh < 3) (b : Nat) :
    nineSlice t x y w h b s = degenerateBox b s := by
  cases t with
  | none => rfl
  | some v =>
    have hv := ht v rfl
    exact if_pos (by omega)

/-! ## Draws pixel by pixel -/

/-- `t` is `s` with another picture, in which pixel `(px, py)` holds what `f px py` makes of its old value. -/
def Paints (f : Nat → Nat → Byte → Byte) (s t : State) : Prop :=
  ∃ fb, t = s.setFb fb ∧ fb.length = s.fb.length ∧
    ∀ px < s.cfg.swidth, ∀ py < s.cfg.sheight, pixelAt t px py = f px py (pixelAt s px py)

/-- A loop of draws: each pixel holds what the draws make of it, one after another. -/
theorem Paints.foldl {α : Type} {f : State → α → State} {g : Nat → Nat → Byte → α → Byte} {l : List α}
    (h : ∀ a ∈ l, ∀ fb, fb.length = s.fb.length → Paints (fun px py old => g px py old a) (s.setFb fb) (f (s.setFb fb) a)) :
    Paints (fun px py old => l.foldl (g px py) old) s (l.foldl f s) := by
  induction l generalizing s with
  | nil => exact ⟨s.fb, rfl, rfl, fun _ _ _ _ => rfl⟩
  | cons a l ih =>
    obtain ⟨fb, hdraw, hfb, hpix⟩ := h a List.mem_cons_self s.fb rfl
    obtain ⟨fb', hloop, hfb', hpix'⟩ := ih (s := s.setFb fb) fun d hd fb₁ hfb₁ =>
      h d (List.mem_cons_of_mem _ hd) fb₁ (hfb₁.trans hfb)
    rw [State.setFb_self] at hdraw
    rw [List.foldl_cons, hdraw]
    refine ⟨fb', hloop, hfb'.trans hfb, fun px hx py hy => (hpix' px hx py hy).trans ?_⟩
    rw [← hdraw]
    exact congrArg (List.foldl (g px py) · l) (hpix px hx py hy)

/-- The pixel is in the rectangle the elementary draw is laid on (R208). -/
abbrev Slice.Covers (e : Slice) (px py : Nat) : Prop :=
  e.dx ≤ (px : Int) ∧ (px : Int) < e.dx + e.cw ∧ e.dy ≤ (py : Int) ∧ (py : Int) < e.dy + e.ch

/-- What an elementary draw of view `v` makes of a pixel that held `old` (R208). -/
def sliceOver (s : State) (v : View) (sw sh : Nat) (px py : Nat) (old : Byte) (e : Slice) : Byte :=
  if e.Covers px py then Spec.painted s v (e.a * sw + (px - e.dx)) (e.b * sh + (py - e.dy)) old else old

/-- The slice lies inside the view. -/
def Slice.Fits (e : Slice) (v : View) (sw sh : Nat) : Prop := e.a * sw + e.cw ≤ v.vw ∧ e.b * sh + e.ch ≤ v.vh

/-- A texel of a crop is a texel of the view (R147, R68). -/
theorem texelIndex_crop (dx dy : Int) (cw ch : Nat) (tx ty : Int) :
    Spec.texelIndex s ⟨v.img, v.vx + dx, v.vy + dy, cw, ch⟩ tx ty = Spec.texelIndex s v (dx + tx) (dy + ty) := by
  simp only [Spec.texelIndex, Int.add_assoc]

/-- A crop of a view that lies inside its image is one too (R147). -/
theorem inside_crop (hv : View.inside s v) {dx dy : Int} {cw ch : Nat} (hx : 0 ≤ dx) (hy : 0 ≤ dy) (hcw : 1 ≤ cw) (hch : 1 ≤ ch)
    (hw : dx + cw ≤ v.vw) (hh : dy + ch ≤ v.vh) : View.inside s ⟨v.img, v.vx + dx, v.vy + dy, cw, ch⟩ := by
  obtain ⟨im, him, hvx, hvy, -, -, hvw, hvh⟩ := hv
  refine ⟨im, him, ?_⟩
  dsimp only
  omega

/-- An elementary draw lays its slice unscaled on the screen; a slice of no extent draws nothing (R208, R147). -/
theorem drawSlice_paints (hr : s.raced = []) (hf : FramesOk s) (hv : View.inside s v) (he : e.Fits v sw sh) :
    Paints (fun px py old => sliceOver s v sw sh px py old e) s (drawSlice v sw sh e s) := by
  obtain ⟨hew, heh⟩ := he
  unfold drawSlice cropView crop
  split
  case isTrue hempty =>
    refine ⟨s.fb, rfl, rfl, fun px _ py _ => (if_neg ?_).symm⟩
    omega
  case isFalse hext =>
    have hcrop := inside_crop hv (dx := e.a * sw) (dy := e.b * sh) (cw := e.cw.toNat) (ch := e.ch.toNat) (by positivity) (by positivity)
      (by omega) (by omega) (by omega) (by omega)
    obtain ⟨fb, hblit, hfb, -⟩ := blit_pixels hr hf.1 hcrop e.dx e.dy
    refine ⟨fb, hblit, hfb, fun px hx py hy => ?_⟩
    dsimp only [sliceOver]
    split
    case isTrue hin =>
      obtain ⟨tx, htx⟩ := Int.eq_ofNat_of_zero_le (show 0 ≤ (px : Int) - e.dx by omega)
      obtain ⟨ty, hty⟩ := Int.eq_ofNat_of_zero_le (show 0 ≤ (py : Int) - e.dy by omega)
      obtain ⟨b, hb⟩ := exists_texelIndex hcrop (show tx < e.cw.toNat by omega) (show ty < e.ch.toNat by omega)
      rw [blit_pixel hr hf.1 hx hy (tx := tx) (ty := ty) (by dsimp only; omega) (by dsimp only; omega) (by omega) (by omega) hb, htx, hty]
      rw [texelIndex_crop] at hb
      simp only [Spec.painted, hb]
    case isFalse hout =>
      refine (blit_keepsPixel hx ?_).pixel
      dsimp only
      omega

/-- The draws of a list of slices (R211). -/
theorem foldl_drawSlice_paints {l : List Slice} (hr : s.raced = []) (hf : FramesOk s) (hv : View.inside s v)
    (hl : ∀ e ∈ l, e.Fits v sw sh) :
    Paints (fun px py old => l.foldl (sliceOver s v sw sh px py) old) s (l.foldl (fun s e => drawSlice v sw sh e s) s) :=
  .foldl fun e he fb hfb => drawSlice_paints (s := s.setFb fb) hr ⟨hfb.trans hf.1, hf.2⟩ hv (hl e he)

/-! ## The pieces of an axis -/

/-- The pieces R206 and R207 cut an axis of the box into: `Piece x w sw a cw dx` says that slice number `a` is laid `cw` pixels wide from
`dx` on. -/
inductive Piece (x w : Int) (sw : Nat) : Nat → Int → Int → Prop
  | first : Piece x w sw 0 sw x
  | tile (k : Nat) (hk : k < edgeTiles w sw) : Piece x w sw 1 (tileSpan w sw k) (x + sw + k * sw)
  | last : Piece x w sw 2 sw (x + w - sw)

/-- The elements of the draw list are the pairs of a piece of either axis (R207): each pair of kinds of pieces has its own group in the
list. -/
theorem mem_sliceList : e ∈ sliceList x y w h sw sh ↔ Piece x w sw e.a e.cw e.dx ∧ Piece y h sh e.b e.ch e.dy := by
  simp only [sliceList, corners, edges, centre, List.mem_append, List.mem_cons, List.not_mem_nil, or_false, List.mem_map, List.mem_range,
    Prod.exists, mem_rowMajor]
  constructor
  · rintro (((rfl | rfl | rfl | rfl) | (((⟨k, hk, rfl⟩ | ⟨k, hk, rfl⟩) | ⟨k, hk, rfl⟩) | ⟨k, hk, rfl⟩)) | ⟨c, r, ⟨hc, hr⟩, rfl⟩)
    · exact ⟨.first, .first⟩
    · exact ⟨.last, .first⟩
    · exact ⟨.first, .last⟩
    · exact ⟨.last, .last⟩
    · exact ⟨.tile k hk, .first⟩
    · exact ⟨.tile k hk, .last⟩
    · exact ⟨.first, .tile k hk⟩
    · exact ⟨.last, .tile k hk⟩
    · exact ⟨.tile c hc, .tile r hr⟩
  · obtain ⟨a, b, cw, ch, dx, dy⟩ := e
    rintro ⟨_ | ⟨c, hc⟩ | _, _ | ⟨r, hr⟩ | _⟩
    · exact .inl (.inl (.inl rfl))
    · exact .inl (.inr (.inl (.inr ⟨r, hr, rfl⟩)))
    · exact .inl (.inl (.inr (.inr (.inl rfl))))
    · exact .inl (.inr (.inl (.inl (.inl ⟨c, hc, rfl⟩))))
    · exact .inr ⟨c, r, ⟨hc, hr⟩, rfl⟩
    · exact .inl (.inr (.inl (.inl (.inr ⟨c, hc, rfl⟩))))
    · exact .inl (.inl (.inr (.inl rfl)))
    · exact .inl (.inr (.inr ⟨r, hr, rfl⟩))
    · exact .inl (.inl (.inr (.inr (.inr rfl))))

/-- A tile is one between the corners when something is left for it (R206). -/
theorem lt_edgeTiles_iff {k : Nat} (hsw : 0 < sw) : k < edgeTiles w sw ↔ (k + 2) * (sw : Int) < w := by
  have hpos : (0 : ℚ) < sw := by exact_mod_cast hsw
  have hceil : ((k + 2 : Int) < ⌈(w : ℚ) / sw⌉) ↔ (k + 2) * (sw : Int) < w := by
    rw [Int.lt_ceil, lt_div_iff₀ hpos]
    exact_mod_cast Iff.rfl
  rw [edgeTiles_eq_tilesBetween, Spec.tilesBetween, ← hceil]
  omega

variable {a : Nat} {cw dx p : Int}

theorem Piece.fits (hp : Piece x w sw a cw dx) : a * sw + cw ≤ 3 * (sw : Int) := by
  cases hp with
  | first => omega
  | tile k hk => simp only [tileSpan]; omega
  | last => omega

/-- Every element of the list is a slice of the view (R205). -/
theorem fits_of_mem_sliceList (he : e ∈ sliceList x y w h (v.vw / 3) (v.vh / 3)) : e.Fits v (v.vw / 3) (v.vh / 3) := by
  obtain ⟨hx, hy⟩ := mem_sliceList.mp he
  exact ⟨hx.fits.trans (by omega), hy.fits.trans (by omega)⟩

/-- A piece of a box whose corners do not overlap lies inside the box and shows R209's texels. -/
theorem Piece.boxSource (hp : Piece x w sw a cw dx) (hw : 2 * (sw : Int) ≤ w) (hlo : dx ≤ p) (hhi : p < dx + cw) :
    (x ≤ p ∧ p < x + w) ∧ a * sw + (p - dx) = Spec.boxSource w sw (p - x) := by
  unfold Spec.boxSource
  cases hp with
  | first => rw [if_pos (by omega)]; omega
  | tile k hk =>
    simp only [tileSpan] at hhi
    have hk0 : 0 ≤ (k : Int) * sw := by positivity
    have hmod : (p - x - sw) % sw = p - (x + sw + k * sw) := by
      rw [← Int.emod_eq_of_lt (show 0 ≤ p - (x + sw + k * sw) by omega) (show p - (x + sw + k * sw) < sw by omega),
        show p - x - sw = p - (x + sw + k * sw) + k * sw by ring, Int.add_mul_emod_self_right]
    rw [if_neg (by omega), if_pos (by omega), hmod]
    omega
  | last => rw [if_neg (by omega), if_neg (by omega)]; omega

/-- The pieces leave nothing of the box uncovered (R206). -/
theorem exists_piece_over (hsw : 0 < sw) (hlo : x ≤ p) (hhi : p < x + w) : ∃ a cw dx, Piece x w sw a cw dx ∧ dx ≤ p ∧ p < dx + cw := by
  by_cases hfirst : p - x < sw
  · exact ⟨0, sw, x, .first, by omega⟩
  by_cases hlast : w - sw ≤ p - x
  · exact ⟨2, sw, x + w - sw, .last, by omega⟩
  have hsw' : (0 : Int) < sw := by exact_mod_cast hsw
  obtain ⟨k, hk⟩ := Int.eq_ofNat_of_zero_le (Int.ediv_nonneg (show 0 ≤ p - x - sw by omega) hsw'.le)
  have hdiv := Int.mul_ediv_add_emod (p - x - sw) sw
  have hmod := Int.emod_nonneg (p - x - sw) hsw'.ne'
  have hmod' := Int.emod_lt_of_pos (p - x - sw) hsw'
  rw [hk, mul_comm] at hdiv
  refine ⟨1, tileSpan w sw k, x + sw + k * sw, .tile k ((lt_edgeTiles_iff hsw).mpr ?_), ?_, ?_⟩
  · rw [add_mul]; omega
  · omega
  · simp only [tileSpan]; omega

/-! ## The whole box -/

/-- `SBOX` on a view with slices, with no race: the first elements of the list, as many as the budget has left (R211, R212). -/
theorem exec_sbox_paints (x y w h : Word) (hd : s.drawEn = true) (hr : s.raced = []) (hf : FramesOk s) (htex : s.ns.tex = some v)
    (hv : View.inside s v) (hw : 3 ≤ v.vw) (hh : 3 ≤ v.vh) :
    ∃ fb, exec (.sbox x y w h) s = .next { s with
        fb := fb, sc := s.sc + min (s.cfg.numSprites - s.sc) (Spec.listLength (intOf w) (intOf h) (v.vw / 3) (v.vh / 3)) } ∧
      ∀ px < s.cfg.swidth, ∀ py < s.cfg.sheight, fb.getD (py * s.cfg.swidth + px) 0 =
        ((sliceList (intOf x) (intOf y) (intOf w) (intOf h) (v.vw / 3) (v.vh / 3)).take (s.cfg.numSprites - s.sc)).foldl
          (sliceOver s v (v.vw / 3) (v.vh / 3) px py) (pixelAt s px py) := by
  obtain ⟨fb, hloop, -, hpix⟩ := foldl_drawSlice_paints hr hf hv
    (l := (sliceList (intOf x) (intOf y) (intOf w) (intOf h) (v.vw / 3) (v.vh / 3)).take (s.cfg.numSprites - s.sc))
    fun e he => fits_of_mem_sliceList (List.mem_of_mem_take he)
  rw [hloop] at hpix
  refine ⟨fb, ?_, hpix⟩
  rw [exec_sbox_on _ _ _ _ hd, drawBox, htex, nineSlice_of_view hw hh, hloop]
  rfl

/-- An index over the same index, or a transparent one twice, is as once (R72). -/
theorem painted_painted (s : State) (v : View) (tx ty : Int) (old : Byte) :
    Spec.painted s v tx ty (Spec.painted s v tx ty old) = Spec.painted s v tx ty old := by
  unfold Spec.painted
  cases Spec.texelIndex s v tx ty with
  | none => rfl
  | some b =>
    simp only [Spec.plotted]
    split <;> rfl

/-- A loop whose steps apply one idempotent function, or leave the value. -/
theorem foldl_eq_of_idempotent {α β : Type} {f : β → α → β} {g : β → β} {q : α → Prop} [DecidablePred q] {l : List α}
    (hg : ∀ b, g (g b) = g b) (hf : ∀ a ∈ l, ∀ b, f b a = if q a then g b else b) (b : β) :
    l.foldl f b = if ∃ a ∈ l, q a then g b else b := by
  induction l generalizing b with
  | nil => simp
  | cons a l ih =>
    rw [List.foldl_cons, ih (fun d hd => hf d (List.mem_cons_of_mem _ hd)), hf a List.mem_cons_self]
    by_cases ha : q a <;> simp [ha, hg]

/-- The elements of the list cover the box (R206, R207). -/
theorem exists_covers_iff (hsw : 0 < sw) (hsh : 0 < sh) (hw : 2 * (sw : Int) ≤ w) (hh : 2 * (sh : Int) ≤ h) (px py : Nat) :
    (∃ e ∈ sliceList x y w h sw sh, e.Covers px py) ↔ x ≤ px ∧ px < x + w ∧ y ≤ py ∧ py < y + h := by
  constructor
  · rintro ⟨e, he, hlox, hhix, hloy, hhiy⟩
    obtain ⟨hex, hey⟩ := mem_sliceList.mp he
    obtain ⟨⟨hx, hx'⟩, -⟩ := hex.boxSource hw hlox hhix
    exact ⟨hx, hx', (hey.boxSource hh hloy hhiy).1⟩
  · rintro ⟨hx, hx', hy, hy'⟩
    obtain ⟨a, cw, dx, hex, hlox, hhix⟩ := exists_piece_over hsw hx hx'
    obtain ⟨b, ch, dy, hey, hloy, hhiy⟩ := exists_piece_over hsh hy hy'
    exact ⟨⟨a, b, cw, ch, dx, dy⟩, mem_sliceList.mpr ⟨hex, hey⟩, hlox, hhix, hloy, hhiy⟩

/-- Whichever element covers a pixel, it shows there the texel R209 names for the pixel: elements that overlap show the same. -/
theorem sliceOver_of_mem_sliceList (he : e ∈ sliceList x y w h sw sh) (hw : 2 * (sw : Int) ≤ w) (hh : 2 * (sh : Int) ≤ h) (px py : Nat)
    (old : Byte) :
    sliceOver s v sw sh px py old e =
      if e.Covers px py then Spec.painted s v (Spec.boxSource w sw (px - x)) (Spec.boxSource h sh (py - y)) old else old := by
  unfold sliceOver
  split
  case isTrue hin =>
    obtain ⟨hlox, hhix, hloy, hhiy⟩ := hin
    obtain ⟨hex, hey⟩ := mem_sliceList.mp he
    rw [(hex.boxSource hw hlox hhix).2, (hey.boxSource hh hloy hhiy).2]
  case isFalse => rfl

/-- The whole list shows in a pixel of the box the texel R209 names for it, and leaves the pixels outside the box. -/
theorem foldl_sliceOver_sliceList (hsw : 0 < sw) (hsh : 0 < sh) (hw : 2 * (sw : Int) ≤ w) (hh : 2 * (sh : Int) ≤ h) (px py : Nat)
    (old : Byte) :
    (sliceList x y w h sw sh).foldl (sliceOver s v sw sh px py) old =
      if x ≤ px ∧ px < x + w ∧ y ≤ py ∧ py < y + h then
        Spec.painted s v (Spec.boxSource w sw (px - x)) (Spec.boxSource h sh (py - y)) old
      else old := by
  rw [foldl_eq_of_idempotent (painted_painted s v _ _) fun e he => sliceOver_of_mem_sliceList he hw hh px py]
  exact if_congr (exists_covers_iff hsw hsh hw hh px py) rfl rfl

end NineSlice

end Sys2Proof.Machine

section
open Sys2Proof Sys2Proof.Machine

/-- Settles O27: a take of R207's list, whose length is R213's, of draws that change only the picture. -/
theorem sboxCount : Obligations.SboxCount := by
  intro s x y w h v hd htex hw hh
  obtain ⟨-, fb, k, hpic, hfb⟩ := nineSlice_spec s.ns.tex (intOf x) (intOf y) (intOf w) (intOf h) (s.cfg.numSprites - s.sc) s
  refine ⟨fb, k, ?_, hfb⟩
  rw [exec_sbox_on _ _ _ _ hd, drawBox, hpic, htex, nineSlice_of_view hw hh]
  rfl

/-- Settles O29: a loop of elementary draws, each of which paints its rectangle. -/
theorem sboxPaintsListPrefix : Obligations.SboxPaintsListPrefix := by
  intro s x y w h v hd hr hf htex hv hw hh
  simp only [← sliceList_eq_drawList]
  obtain ⟨fb, hexec, hpix⟩ := exec_sbox_paints x y w h hd hr hf htex hv hw hh
  exact ⟨fb, _, hexec, hpix⟩

/-- Settles O30: the budget takes the whole list, and the list fills the box. -/
theorem sboxFillsRectangle : Obligations.SboxFillsRectangle := by
  intro s x y w h v hd hr hf htex hv hw hh hboxw hboxh hroom
  obtain ⟨fb, hexec, hpix⟩ := exec_sbox_paints x y w h hd hr hf htex hv hw hh
  refine ⟨fb, _, hexec, fun px hx py hy => ?_⟩
  rw [hpix px hx py hy, List.take_of_length_le (by rw [length_sliceList]; omega),
    foldl_sliceOver_sliceList (by omega) (by omega) hboxw hboxh]

/-- Settles O28: no slices is the degenerate box, which uses one free value for its count. -/
theorem sboxDegenerate : Obligations.SboxDegenerate := by
  intro s x y w h hd ht
  obtain ⟨hn, hstate⟩ := degenerateBox_spec (s.cfg.numSprites - s.sc) s
  refine ⟨_, s.draws + 1, hn, ?_⟩
  rw [exec_sbox_on _ _ _ _ hd, drawBox, nineSlice_of_degenerate ht, hstate]
  rfl

end
end

section
/-! SUPPORT. Frame control (R120, R221, R224, R226, R227): the lookup stage pixel by pixel, the index of a colour operand (R118), and
`DRAW_EN` as `STATUS` shows it (R29). -/

namespace Sys2Proof.Machine

section FrameControl
variable {s : State}

/-! ## The lookup stage -/

/-- R120: inside the lookup table the colour is the table's, and no free value is used. -/
theorem lutColor_of_some {lut : List Word} {v : Byte} {c : Word} (hc : lut[v.toNat]? = some c) (k : Nat) : lutColor lut v k = (c, k) := by
  simp [lutColor, hc]

/-- R226: a pixel whose index is in the lookup table shows that entry, however many free colours the pixels before it used. -/
theorem lutImage_getElem? {lut : List Word} {vs : List Byte} {n : Nat} {v : Byte} {c : Word} (hv : vs[n]? = some v)
    (hc : lut[v.toNat]? = some c) (k : Nat) : (lutImage lut vs k).1[n]? = some c := by
  induction vs generalizing n k with
  | nil => cases hv
  | cons u us ih =>
    cases n with
    | zero =>
      obtain rfl : u = v := Option.some.inj hv
      exact congrArg (some ·.1) (lutColor_of_some hc k)
    | succ n => exact ih hv _

theorem exec_postrender_eq (s : State) :
    exec .postrender s = .next { s with
      presents := s.presents ++ [(lutImage s.lut s.fb s.draws).1], sc := 0, draws := (lutImage s.lut s.fb s.draws).2 } := rfl

/-! ## Colour operands -/

/-- R118: the model's index of a colour operand is the one of the rules. -/
theorem colorIndex_isColorIndex (s : State) (c : BitVec 24) : Spec.IsColorIndex s c (colorIndex c s) := by
  rw [Spec.IsColorIndex, colorIndex, ← rgbaOf_eq_append]
  cases h : palIndex (rgbaOf c) s with
  | some k =>
    obtain ⟨hk, hlow⟩ := palIndex_some h
    exact .inl ⟨k, hk, hlow, rfl⟩
  | none => exact .inr ⟨palIndex_none h, rfl⟩

theorem exec_clear_on (c : BitVec 24) (hd : s.drawEn = true) :
    exec (.clear c) s = .next { s with fb := List.replicate (s.cfg.swidth * s.cfg.sheight) (colorIndex c s) } :=
  congrArg Host.Outcome.next (gated_on hd)

/-! ## The camera and the tile resolution -/

theorem exec_camera_on (x y : Word) (hd : s.drawEn = true) : exec (.camera x y) s = .next { s with camX := fixOf x, camY := fixOf y } :=
  congrArg Host.Outcome.next (gated_on hd)

theorem exec_tmode_eq (v : Word) (s : State) : exec (.tmode v) s = .next { s with tmode := Spec.legalTile v.toInt } := by
  rw [← tileSizeOr_eq_legalTile]
  rfl

/-! ## `DRAW_EN` in `STATUS` -/

/-- A one-bit field of a word, as a number, is its bit. -/
theorem bits_self (w : Word) (k : Nat) : bits w k k = (w.getLsbD k).toNat := by
  rw [bits, Nat.add_sub_cancel_left, pow_one, BitVec.getLsbD, Nat.toNat_testBit]

/-- R29: bit 0 of `STATUS` is `DRAW_EN`. -/
theorem statusWord_bit_zero (s : State) : bits (statusWord s) 0 0 = if s.drawEn then 1 else 0 := by
  obtain ⟨h0, -⟩ := statusWord_getLsbD (s := s)
  rw [bits_self, h0, Bool.toNat, Bool.cond_eq_ite]

end FrameControl

end Sys2Proof.Machine

section
open Sys2Proof Sys2Proof.Machine

/-- Settles O16: the image is the frame through the lookup stage, a colour a pixel. -/
theorem postrenderPresentsFrame : Obligations.PostrenderPresentsFrame := fun s =>
  ⟨_, _, exec_postrender_eq s, lutImage_length _ _ _, fun _ _ _ hv hc => lutImage_getElem? hv hc _⟩

/-- Settles O15: `DRAWEN` writes the field that bit 0 of `STATUS` shows. -/
theorem controlCommands : Obligations.ControlCommands := fun s b =>
  ⟨rfl, rfl, s.setDrawEn b, rfl, rfl, statusWord_bit_zero _⟩

/-- Settles O17: the index is `ColorIndex` of the operand, under either `COMPOSE`. -/
theorem clearFillsFramebuffer : Obligations.ClearFillsFramebuffer := fun s c hd =>
  ⟨_, colorIndex_isColorIndex s c, exec_clear_on c hd⟩

/-- Settles O18: `CAMERA` behind the gate, `TMODE` without one. -/
theorem cameraAndTileMode : Obligations.CameraAndTileMode := fun s x y v =>
  ⟨exec_camera_on x y, exec_tmode_eq v s⟩

end
end

section
/-! SUPPORT. The text commands (R240 to R249): the setters of `NT`, the font that `FNT` selects, and the pixels of `FDRAW`, its integer
arithmetic as the rules' rationals. -/

namespace Sys2Proof.Machine

section TextDraw
variable {s : State} {r : Raster} {p : Nat × Nat}

/-! ## The next-text object -/

theorem exec_falign_on (x y : Word) (hd : s.drawEn = true) :
    exec (.falign x y) s = .next { s with nt := { s.nt with alignX := fixOf x, alignY := fixOf y } } :=
  congrArg Host.Outcome.next (gated_on hd)

theorem exec_fcolor_on (c : BitVec 24) (hd : s.drawEn = true) :
    exec (.fcolor c) s = .next { s with nt := { s.nt with color := colorIndex c s } } :=
  congrArg Host.Outcome.next (gated_on hd)

theorem exec_fclear_on (hd : s.drawEn = true) : exec .fclear s = .next { s with nt := .default } :=
  congrArg Host.Outcome.next (gated_on hd)

/-! ## Selecting a font -/

theorem exec_fnt_of_some {name : Bytes} {n : Nat} (hn : s.font.findIdx? (fun e => e.name == name) = some n) :
    exec (.fnt name) s = .next { s with nt := { s.nt with font := some n }, result := BitVec.ofNat 32 n } := by
  simp only [exec, execFnt, hn, setResult_natCast]
  rfl

theorem exec_fnt_of_none {name : Bytes} (hn : s.font.findIdx? (fun e => e.name == name) = none) :
    exec (.fnt name) s = .next { s with logNf := true, nt := { s.nt with font := none }, result := 0xFFFFFFFF } := by
  simp only [exec, execFnt, hn]
  rfl

theorem selectedFont_of_none (hn : s.nt.font = none) : selectedFont s = none := by rw [selectedFont, hn, Option.bind_none]

theorem selectedFont_of_some {k : Nat} (hk : s.nt.font = some k) : selectedFont s = s.font[k]? := by
  rw [selectedFont, hk, Option.bind_some]

/-! ## Where a text goes (R245) -/

/-- R10: the model's rounding down is the rationals'. -/
theorem fixFloor_rat (q : Fix) : fixFloor q = ⌊Spec.rat q⌋ := fixFloor_eq q

theorem rat_natCast_mul (n : Nat) (q : Fix) : Spec.rat (n * q) = n * Spec.rat q := by
  simp only [Spec.rat, Int.cast_mul, Int.cast_natCast, mul_div_assoc]

/-- The column of a text's top-left pixel: the camera by R181, then the alignment. -/
theorem textStart_screenPos_fst (x y : Fix) (size : Nat) (align : Fix) (s : State) :
    textStart (screenPos x y s).1 size align = ⌊Spec.screenX s x⌋ - ⌊(size : ℚ) * Spec.rat align⌋ := by
  rw [textStart, fixFloor_rat, fixFloor_rat, rat_natCast_mul, ← rat_placement_qx x y s]
  rfl

/-- The row of a text's top-left pixel. -/
theorem textStart_screenPos_snd (x y : Fix) (size : Nat) (align : Fix) (s : State) :
    textStart (screenPos x y s).2 size align = ⌊Spec.screenY s y⌋ - ⌊(size : ℚ) * Spec.rat align⌋ := by
  rw [textStart, fixFloor_rat, fixFloor_rat, rat_natCast_mul, ← rat_placement_qy x y s]
  rfl

/-! ## The pixels of a text (R245) -/

theorem mem_coveredPixels : p ∈ coveredPixels r ↔ p ∈ r.cov ∧ p.1 < r.tw ∧ p.2 < r.th := by
  rw [coveredPixels, List.mem_filter, mem_rowMajor, decide_eq_true_iff, and_comm]

/-- Some covered pixel of the raster, laid with its top-left corner at `(x0, y0)`, falls on pixel `(px, py)` of the screen. -/
abbrev RasterCovers (r : Raster) (x0 y0 : Int) (px py : Nat) : Prop :=
  ∃ p ∈ coveredPixels r, x0 + (p.1 : Int) = px ∧ y0 + (p.2 : Int) = py

theorem rasterCovers_iff {x0 y0 : Int} {px py : Nat} :
    RasterCovers r x0 y0 px py ↔ ∃ u v, (u, v) ∈ r.cov ∧ u < r.tw ∧ v < r.th ∧ (px : Int) = x0 + u ∧ (py : Int) = y0 + v := by
  simp only [RasterCovers, Prod.exists, mem_coveredPixels, and_assoc, eq_comm (b := (px : Int)), eq_comm (b := (py : Int))]

/-- An index over the same index, or a transparent one twice, is as once (R72). -/
theorem plotted_plotted (c : Config) (old new : Byte) : Spec.plotted c (Spec.plotted c old new) new = Spec.plotted c old new := by
  unfold Spec.plotted
  split <;> rfl

/-- One covered pixel of a text at screen position `q`: the body of the loop of R245. -/
def plotCovered (r : Raster) (q : Fix × Fix) (s : State) (p : Nat × Nat) : State :=
  plot (textStart q.1 r.tw s.nt.alignX + p.1) (textStart q.2 r.th s.nt.alignY + p.2) (some s.nt.color) s

theorem drawRaster_eq_foldl (r : Raster) (x y : Fix) (s : State) :
    drawRaster r x y s = (coveredPixels r).foldl (plotCovered r (screenPos x y s)) s := rfl

/-- The pixel and the index of that plot, read off the state before the text. -/
def coveredAct (r : Raster) (q : Fix × Fix) (s : State) (p : Nat × Nat) : Option (Int × Int × Byte) :=
  some (textStart q.1 r.tw s.nt.alignX + p.1, textStart q.2 r.th s.nt.alignY + p.2, s.nt.color)

/-- A raster changes the framebuffer alone, and in it exactly the pixels that it covers. -/
theorem drawRaster_pixels (r : Raster) (x y : Fix) (hf : FramesOk s) :
    ∃ fb, drawRaster r x y s = s.setFb fb ∧ fb.length = s.fb.length ∧
      ∀ px < s.cfg.swidth, ∀ py < s.cfg.sheight, pixelAt (s.setFb fb) px py =
        if RasterCovers r (⌊Spec.screenX s x⌋ - ⌊(r.tw : ℚ) * Spec.rat s.nt.alignX⌋)
            (⌊Spec.screenY s y⌋ - ⌊(r.th : ℚ) * Spec.rat s.nt.alignY⌋) px py then
          Spec.plotted s.cfg (pixelAt s px py) s.nt.color
        else pixelAt s px py := by
  simp only [← textStart_screenPos_fst x y, ← textStart_screenPos_snd x y]
  obtain ⟨fb, hloop, hfb, hpix⟩ := foldl_acts (f := plotCovered r (screenPos x y s)) (coveredAct r (screenPos x y s) s)
    (coveredPixels r) (fun _ _ _ => rfl) hf.1
  refine ⟨fb, (drawRaster_eq_foldl r x y s).trans hloop, hfb, fun px hx py hy => (hpix px hx py hy).trans ?_⟩
  exact foldl_eq_of_idempotent (plotted_plotted s.cfg · s.nt.color) (fun _ _ _ => rfl) _

/-! ## `FDRAW` -/

theorem exec_fdraw_on (x y : Word) (text : Bytes) (hd : s.drawEn = true) :
    exec (.fdraw x y text) s = .next (drawText (fixOf x) (fixOf y) text s) := congrArg Host.Outcome.next (gated_on hd)

theorem drawText_of_none (x y : Fix) (text : Bytes) (hn : selectedFont s = none) : drawText x y text s = s := by rw [drawText, hn]

theorem drawText_of_some {f : FontEntry} (x y : Fix) (text : Bytes) (hf : selectedFont s = some f) :
    drawText x y text s = drawRaster (Config.fontRaster f.fid text) x y s := by rw [drawText, hf]

end TextDraw

end Sys2Proof.Machine

section
open Sys2Proof Sys2Proof.Machine

/-- Settles O31: each setter behind the gate; the index of `FCOLOR` is `ColorIndex` of its operand in the state it runs in. -/
theorem textSetters : Obligations.TextSetters := fun s x y c hd =>
  ⟨exec_falign_on x y hd, ⟨_, colorIndex_isColorIndex s c, exec_fcolor_on c hd⟩, exec_fclear_on hd⟩

/-- Settles O32: the search by name stops at the lowest font of the name, or finds none. -/
theorem fntSelectsFont : Obligations.FntSelectsFont := fun _ _ =>
  ⟨fun _ _ hk he hlow => exec_fnt_of_some (findIdx?_name_eq_some hk he hlow),
    fun hno => exec_fnt_of_none (findIdx?_name_eq_none hno)⟩

/-- Settles O33: `FDRAW` runs the pixel loop of the selected font's raster, whose corner is the rules' `(x0, y0)`. -/
theorem fdrawPaintsText : Obligations.FdrawPaintsText := by
  intro s x y text hd hframes
  refine ⟨fun hnone => ?_, fun k f hk hfont => ?_⟩
  · rw [exec_fdraw_on x y text hd, drawText_of_none _ _ _ (selectedFont_of_none hnone)]
  · obtain ⟨fb, hdraw, hfb, hpix⟩ := drawRaster_pixels (Config.fontRaster f.fid text) (fixOf x) (fixOf y) hframes
    refine ⟨fb, ?_, hfb, fun px hx py hy => ⟨fun u v hcov hu hv hxu hyv => ?_, fun hout => ?_⟩⟩
    · rw [exec_fdraw_on x y text hd, drawText_of_some _ _ _ ((selectedFont_of_some hk).trans hfont), hdraw]
      rfl
    · exact (hpix px hx py hy).trans (if_pos (rasterCovers_iff.mpr ⟨u, v, hcov, hu, hv, hxu, hyv⟩))
    · refine (hpix px hx py hy).trans (if_neg fun hcovers => ?_)
      obtain ⟨u, v, hcov, hu, hv, hat⟩ := rasterCovers_iff.mp hcovers
      exact hout u v hcov hu hv hat

end
end

section
/-! SUPPORT. The parameters and the values at reset (R7, R25, R281), and what a command only extends (R29, R30, R35, R138, R226, R282). -/

namespace Sys2Proof.Machine

/-! ## Reset -/

/-- The parameters as R7 decides them, the OPEN ones within its ranges, are legal. -/
theorem wf_platform : Config.platform.wf = true := by simp [Config.wf, Config.platform]

/-- R25: half a screen dimension, as a number of 65536ths. -/
theorem rat_natCast_mul_half (n : Nat) : Spec.rat ((n : Int) * 32768) = (n : ℚ) / 2 := by
  rw [Spec.rat]
  push_cast
  ring

theorem rat_fixOne : Spec.rat fixOne = 1 := by norm_num [Spec.rat, fixOne]

theorem resetWith_fb_length (c : Config) (r : Nat) : (State.resetWith c r).fb.length = c.swidth * c.sheight := by simp [State.resetWith]

/-- What reset leaves does not depend on the number of the next free value. -/
theorem isResetState_resetWith_setDraws (c : Config) (r k : Nat) : Spec.IsResetState c ((State.resetWith c r).setDraws k) :=
  ⟨rfl, rfl, rfl, rat_natCast_mul_half c.swidth, rat_natCast_mul_half c.sheight, rfl, rfl, rfl, rfl, rfl, rfl, rfl, rfl, rfl,
    resetWith_fb_length c r, rfl, rfl, rfl, rfl, rfl, rfl, rfl, rfl, rat_fixOne, rat_fixOne, rfl, rfl, rfl, rfl,
    List.length_replicate, fun _ => List.eq_of_mem_replicate, rfl, rfl, rfl, rfl, rfl, rfl⟩

section Extends
variable {s t : State} {i : Instr}

/-- `t` has the parameters of `s`, its palette, registries and presented images are those of `s` with more at their ends, and no sticky bit
of `s` is clear in it. -/
def Extends (s t : State) : Prop :=
  t.cfg = s.cfg ∧ s.pal <+: t.pal ∧ s.tm <+: t.tm ∧ s.font <+: t.font ∧ s.presents <+: t.presents ∧
    (s.errIll = true → t.errIll = true) ∧ (s.logNf = true → t.logNf = true) ∧ (s.palOvf = true → t.palOvf = true)

theorem Extends.refl (s : State) : Extends s s :=
  ⟨rfl, List.prefix_rfl, List.prefix_rfl, List.prefix_rfl, List.prefix_rfl, id, id, id⟩

/-- An illegal command sets `ERR_ILL`, and clears no bit (R99). -/
theorem Extends.discardIllegal (s : State) : Extends s (discardIllegal s) :=
  ⟨rfl, List.prefix_rfl, List.prefix_rfl, List.prefix_rfl, List.prefix_rfl, fun _ => rfl, id, id⟩

/-! ## What the effects of a command extend -/

theorem Effect.pal_prefix (h : Effect s i t) : s.pal <+: t.pal := by
  cases h with
  | palpush l o r hi hpal => exact hpal.pal_prefix
  | loadtm base w h cell name l o m k r a hok hpal => exact hpal.pal_prefix
  | _ => exact List.prefix_rfl

theorem Effect.tm_prefix (h : Effect s i t) : s.tm <+: t.tm := by
  cases h with
  | loadtm => exact List.prefix_append _ _
  | _ => exact List.prefix_rfl

theorem Effect.font_prefix (h : Effect s i t) : s.font <+: t.font := by
  cases h with
  | loadfnt => exact List.prefix_append _ _
  | _ => exact List.prefix_rfl

theorem Effect.presents_prefix (h : Effect s i t) : s.presents <+: t.presents := by
  cases h with
  | postrender => exact List.prefix_append _ _
  | _ => exact List.prefix_rfl

/-! ## Sticky bits -/

theorem Effect.errIll (h : Effect s i t) : t.errIll = s.errIll := by cases h <;> rfl

theorem Effect.palOvf (h : Effect s i t) (hs : s.palOvf = true) : t.palOvf = true := by
  cases h with
  | palpush l o r hi hpal => exact hpal.palOvf hs
  | loadtm base w h cell name l o m k r a hok hpal => exact hpal.palOvf hs
  | _ => exact hs

/-- Only `STILE`, `FNT`, `TMAP` and `MFILL` can log that something was not found (R263). -/
theorem Effect.logNf_eq_or_opcode (h : Effect s i t) : t.logNf = s.logNf ∨ i.opcode ∈ [0x20, 0x30, 0x40, 0x51] := by
  cases h with
  | tile _ _ hi | mfill _ _ hi => exact .inr (by rw [hi]; decide)
  | fnt | tmap => exact .inr (by simp [Instr.opcode])
  | _ => exact .inl rfl

theorem gated_logNf {f : State → State} (hf : (f s).logNf = true) (hs : s.logNf = true) : (gated f s).logNf = true := by
  unfold gated
  split
  · exact hf
  · exact hs

theorem setTile_logNf {k x y : Int} {w h : Fix} (hs : s.logNf = true) : (setTile k x y w h s).logNf = true := by
  rcases getTile_state k x y w h s.tmode s with e | e <;> simp [setTile, e, hs]

theorem fill_logNf {x y k c r w h : Int} (hs : s.logNf = true) : (fill x y k c r w h s).logNf = true := by
  obtain ⟨cells, e, -⟩ := fill_cells x y k c r w h s
  simp [e, hs]

theorem exec_fnt_logNf {name : Bytes} (h : exec (.fnt name) s = .next t) (hs : s.logNf = true) : t.logNf = true := by
  cases hn : s.font.findIdx? (fun e => e.name == name) with
  | none => obtain rfl := Host.Outcome.next.inj ((exec_fnt_of_none hn).symm.trans h); rfl
  | some k => obtain rfl := Host.Outcome.next.inj ((exec_fnt_of_some hn).symm.trans h); exact hs

theorem exec_tmap_logNf {name : Bytes} (h : exec (.tmap name) s = .next t) (hs : s.logNf = true) : t.logNf = true := by
  cases hn : s.tm.findIdx? (fun e => e.name == name) with
  | none => obtain rfl := Host.Outcome.next.inj ((exec_tmap_of_none hn).symm.trans h); rfl
  | some k => obtain rfl := Host.Outcome.next.inj ((exec_tmap_of_some hn).symm.trans h); exact hs

/-- No command clears `LOG_NF`: the four that can write it only set it. -/
theorem exec_logNf (h : exec i s = .next t) (hs : s.logNf = true) : t.logNf = true := by
  rcases (Effect.of_exec h).logNf_eq_or_opcode with e | hop
  · exact e.trans hs
  · cases i with
    | stile | stileSpan =>
      cases h
      exact gated_logNf (setTile_logNf hs) hs
    | mfill | mfillSpan =>
      cases h
      exact gated_logNf (fill_logNf hs) hs
    | fnt => exact exec_fnt_logNf h hs
    | tmap => exact exec_tmap_logNf h hs
    | _ => simp [Instr.opcode] at hop

theorem Extends.of_exec (h : exec i s = .next t) : Extends s t := by
  have he := Effect.of_exec h
  exact ⟨he.cfg, he.pal_prefix, he.tm_prefix, he.font_prefix, he.presents_prefix, he.errIll.trans, exec_logNf h, he.palOvf⟩

end Extends

end Sys2Proof.Machine

section
open Sys2Proof Sys2Proof.Machine

/-- Settles O12: a command ends in a next state, and so do its discard, the taking of a word and the wait. -/
theorem noStepEverStops : Obligations.NoStepEverStops := by
  intro s
  rcases step_cases s with ⟨i, -, -, e⟩ | ⟨_, -, -, e⟩ | ⟨-, _, _, -, e⟩ | ⟨-, -, e⟩
  · obtain ⟨t, ht, -⟩ := exec_effect i s.retire
    exact ⟨t, e.trans ht⟩
  all_goals exact ⟨_, e⟩

/-- Settles O47: every reset leaves the same values but for the free contents, the power-on reset and the reset input among them. -/
theorem resetValues : Obligations.ResetValues :=
  ⟨fun c r => isResetState_resetWith_setDraws c r 0, isResetState_resetWith_setDraws _ 0 0,
    fun s => isResetState_resetWith_setDraws s.cfg (s.resets + 1) s.draws⟩

/-- Settles O48: the platform's parameters are legal, so its reset state meets every invariant. -/
theorem resetMeetsInvariants : Obligations.ResetMeetsInvariants := ⟨resetWith_inv wf_platform 0, rfl, rfl, rfl⟩

/-- Settles O53: a command and the discard of one only extend the retired state, and taking a word touches the command stream alone. -/
theorem stepOnlyExtends : Obligations.StepOnlyExtends := by
  intro s t h
  rcases step_cases s with ⟨i, -, -, e⟩ | ⟨_, -, -, e⟩ | ⟨-, _, _, -, e⟩ | ⟨-, -, e⟩
  · exact Extends.of_exec (s := s.retire) (e.symm.trans h)
  all_goals
    obtain rfl := Host.Outcome.next.inj (e.symm.trans h)
  · exact Extends.discardIllegal s.retire
  · exact Extends.refl s
  · exact Extends.refl s

end
end
